-- ==== Sys2Proof/Word.lean ====
section
/-! DEFINITION. The widths the spec fixes (spec/00_scope.md R9, spec/10_state.md R20). -/

namespace Sys2Proof

/-- Every wire item and every buffer cell is a byte (R9). -/
abbrev Byte := BitVec 8

/-- A 16-bit unsigned quantity: a payload length, a capacity, a year (R9, R21). -/
abbrev Half := BitVec 16

/-- A 32-bit quantity: one slot of the register space, a timeout, an s32 field (R20). -/
abbrev Word := BitVec 32

end Sys2Proof
end

