-- ==== Sys2Proof/Config.lean ====
section
/-! DEFINITION. The parameters of one instance of the block (spec/00_scope.md R6), the check made once
per instance, the default values, and the values the spec leaves OPEN (opaque: nothing can be proved of
the value). -/

namespace Sys2Proof

/-- The receiver generation the instance is built for (00_scope.md R2). -/
inductive Variant where
  | gen1
  | gen2
  deriving DecidableEq, Repr, Inhabited

/-- One configuration template: class, id, payload and the Gen2-only flag (44_config_sequence.md R190). -/
structure Template where
  cls : Byte
  ident : Byte
  payload : List Byte
  gen2Only : Bool
  deriving DecidableEq, Repr

/-- The byte offsets of the Gen2 fix message's fields (43_fix_decoder.md R160, `OFF_PVT_*`). -/
structure PvtOffsets where
  year : Nat
  month : Nat
  day : Nat
  hour : Nat
  minute : Nat
  second : Nat
  fixType : Nat
  numSv : Nat
  lon : Nat
  lat : Nat
  alt : Nat
  deriving DecidableEq, Repr

/-- The byte offsets of Gen1 message A (43_fix_decoder.md R160, `OFF_POS_*`). -/
structure PosOffsets where
  lon : Nat
  lat : Nat
  alt : Nat
  deriving DecidableEq, Repr

/-- The byte offsets of Gen1 message B (43_fix_decoder.md R160, `OFF_STAT_*`). -/
structure StatOffsets where
  fixType : Nat
  numSv : Nat
  deriving DecidableEq, Repr

/-- The byte offsets of Gen1 message C (43_fix_decoder.md R160, `OFF_TIME_*`). -/
structure TimeOffsets where
  year : Nat
  month : Nat
  day : Nat
  hour : Nat
  minute : Nat
  second : Nat
  deriving DecidableEq, Repr

/-- The parameters of an instance (00_scope.md R6). `NTEMPL` is the length of `templates`. The sync bytes
are constants, not parameters (30_encoding.md R76). The last four are host-side values that no rule of
the block reads (43_fix_decoder.md R176, 70_reset_and_hazards.md R237, 20_memory.md R58). -/
structure Params where
  variant : Variant
  txpSize : Nat
  respSize : Nat
  pollSleepAckMs : Nat
  pollSleepDmxMs : Nat
  ackClass : Byte
  ackMark : Byte
  nakMark : Byte
  ackLen : Half
  verifyRxChecksum : Bool
  pvtClass : Byte
  pvtId : Byte
  posClass : Byte
  posId : Byte
  statClass : Byte
  statId : Byte
  timeClass : Byte
  timeId : Byte
  offPvt : PvtOffsets
  offPos : PosOffsets
  offStat : StatOffsets
  offTime : TimeOffsets
  templates : List Template
  fix3dCode : Nat
  satMin : Nat
  settleMs : Nat
  gpeBase : Nat
  deriving DecidableEq, Repr

/-- Every offset of the Gen2 message plus its width lies in RESP (R160). -/
def PvtOffsets.fits (o : PvtOffsets) (size : Nat) : Bool :=
  decide (o.year + 2 ≤ size) && decide (o.month + 1 ≤ size) && decide (o.day + 1 ≤ size) &&
  decide (o.hour + 1 ≤ size) && decide (o.minute + 1 ≤ size) && decide (o.second + 1 ≤ size) &&
  decide (o.fixType + 1 ≤ size) && decide (o.numSv + 1 ≤ size) && decide (o.lon + 4 ≤ size) &&
  decide (o.lat + 4 ≤ size) && decide (o.alt + 4 ≤ size)

/-- Every offset of message A plus its width lies in RESP (R160). -/
def PosOffsets.fits (o : PosOffsets) (size : Nat) : Bool :=
  decide (o.lon + 4 ≤ size) && decide (o.lat + 4 ≤ size) && decide (o.alt + 4 ≤ size)

/-- Every offset of message B plus its width lies in RESP (R160). -/
def StatOffsets.fits (o : StatOffsets) (size : Nat) : Bool :=
  decide (o.fixType + 1 ≤ size) && decide (o.numSv + 1 ≤ size)

/-- Every offset of message C plus its width lies in RESP (R160). -/
def TimeOffsets.fits (o : TimeOffsets) (size : Nat) : Bool :=
  decide (o.year + 2 ≤ size) && decide (o.month + 1 ≤ size) && decide (o.day + 1 ≤ size) &&
  decide (o.hour + 1 ≤ size) && decide (o.minute + 1 ≤ size) && decide (o.second + 1 ≤ size)

/-- The constraints of R6, R160 and R191, "checked once per instance, not at run time". -/
def Params.admissible (p : Params) : Bool :=
  decide (1 ≤ p.txpSize) && decide (p.txpSize ≤ 65535) &&
  decide (92 ≤ p.respSize) && decide (p.respSize ≤ 65535) &&
  decide (1 ≤ p.pollSleepAckMs) && decide (1 ≤ p.pollSleepDmxMs) &&
  decide (p.ackMark ≠ p.nakMark) &&
  p.offPvt.fits p.respSize && p.offPos.fits p.respSize &&
  p.offStat.fits p.respSize && p.offTime.fits p.respSize &&
  decide (1 ≤ p.templates.length) && decide (p.templates.length ≤ 8) &&
  p.templates.all (fun t => decide (t.payload.length ≤ p.txpSize))

/-- An instance of the block: its parameters, with the check of R6 made once, so that no later rule makes
it again (log 1). -/
structure Instance where
  p : Params
  ok : p.admissible = true
  deriving DecidableEq, Repr

namespace Config

/-- OPEN parameter `VARIANT` (R6, I19): the strap of the chip. An opaque constant (log 2). -/
opaque strap : Variant

/-- OPEN parameters `P0` .. `P3` (R190, I1): payload k is the first TXP_SIZE bytes of an opaque list (log 3). -/
opaque openPayload : Nat → List Byte

/-- OPEN, host-side: the satellite threshold `SAT_MIN` (R176, I16); no rule of the block reads it. -/
opaque satMin : Nat

/-- OPEN, host-side: the settle delay `SETTLE_MS` (R237, I17); no rule of the block reads it. -/
opaque settleMs : Nat

/-- OPEN, platform: `GPE_BASE` (R58, I18); no rule of the block reads it. -/
opaque gpeBase : Nat

/-- FREE VALUE: how many moves for which the schedule scripts nothing pass while the clock stands, before
its k-th advance among such moves (R39, I7; log 4). Machine/Ops.lean's clockDraw reads it. -/
opaque clockPause : Nat → Nat

/-- FREE VALUE: the k-th advance of the clock among the moves for which the schedule scripts nothing is by
one millisecond more than this (R39, I7; log 4). -/
opaque clockRise : Nat → Nat

/-- FREE VALUE: the bytes the receiver appends at the n-th move for which the schedule scripts nothing
(R38, I8; log 4). -/
opaque arrivalDraw : Nat → List Byte

/-- The five default templates (44_config_sequence.md R190), for given payloads of steps 0 to 3. The
class and id values and the step-4 payload are the spec's general-knowledge defaults (UNVERIFIED, log 16). -/
def defaultTemplates (p0 p1 p2 p3 : List Byte) : List Template :=
  [ { cls := 0x06, ident := 0x00, payload := p0, gen2Only := false },
    { cls := 0x06, ident := 0x3E, payload := p1, gen2Only := true },
    { cls := 0x06, ident := 0x24, payload := p2, gen2Only := false },
    { cls := 0x06, ident := 0x3B, payload := p3, gen2Only := false },
    { cls := 0x06, ident := 0x11, payload := [0x08, 0x00], gen2Only := false } ]

/-- The default parameters of R6 and R160, for a given variant and given template table (UNVERIFIED where
the spec marks them general knowledge, log 16). -/
def defaults (v : Variant) (templates : List Template) : Params where
  variant := v
  txpSize := 256
  respSize := 128
  pollSleepAckMs := 100
  pollSleepDmxMs := 100
  ackClass := 0x05
  ackMark := 0x01
  nakMark := 0x00
  ackLen := 0x0002
  verifyRxChecksum := false
  pvtClass := 0x01
  pvtId := 0x07
  posClass := 0x01
  posId := 0x02
  statClass := 0x01
  statId := 0x06
  timeClass := 0x01
  timeId := 0x21
  offPvt := { year := 4, month := 6, day := 7, hour := 8, minute := 9, second := 10, fixType := 20,
              numSv := 23, lon := 24, lat := 28, alt := 36 }
  offPos := { lon := 4, lat := 8, alt := 16 }
  offStat := { fixType := 10, numSv := 47 }
  offTime := { year := 12, month := 14, day := 15, hour := 16, minute := 17, second := 18 }
  templates := templates
  fix3dCode := 3
  satMin := satMin
  settleMs := settleMs
  gpeBase := gpeBase

/-- The parameters of the chip: the defaults of R6, the OPEN ones opaque. -/
def chipParams : Params :=
  defaults strap
    (defaultTemplates ((openPayload 0).take 256) ((openPayload 1).take 256)
      ((openPayload 2).take 256) ((openPayload 3).take 256))

theorem chipParams_admissible : chipParams.admissible = true := by
  simp [Params.admissible, chipParams, defaults, defaultTemplates, PvtOffsets.fits, PosOffsets.fits,
    StatOffsets.fits, TimeOffsets.fits]

/-- The instance State.reset is the reset state of. -/
def chip : Instance := ⟨chipParams, chipParams_admissible⟩

end Config

end Sys2Proof
end

