-- ==== Sys2Proof/Machine/Frame.lean ====
section
/-! DEFINITION. The wire format: byte order, the Fletcher checksum, the frame builder and the two
acknowledgement templates (spec/00_scope.md R11, spec/30_encoding.md R70 to R75, spec/40_command_encoder.md
R90, R91, R100, spec/41_ack_matcher.md R110). -/

namespace Sys2Proof.Machine

/-- Bits 7:0 of a 16-bit value (R70, `len_lo`). -/
def lowByte (v : Half) : Byte := BitVec.ofNat 8 v.toNat

/-- Bits 15:8 of a 16-bit value (R70, `len_hi`). -/
def highByte (v : Half) : Byte := BitVec.ofNat 8 (v.toNat / 256)

/-- `le16(b0, b1)` (R11). -/
def le16 (b0 b1 : Byte) : Half := BitVec.ofNat 16 (b0.toNat + 256 * b1.toNat)

/-- `le32(b0, b1, b2, b3)` (R11). -/
def le32 (b0 b1 b2 b3 : Byte) : Word :=
  BitVec.ofNat 32 (b0.toNat + 256 * b1.toNat + 65536 * b2.toNat + 16777216 * b3.toNat)

/-- Frame sync byte 1, fixed (R76). -/
def sync1 : Byte := 0xB5

/-- Frame sync byte 2, fixed (R76). -/
def sync2 : Byte := 0x62

/-- One byte into the accumulator pair: `a <- a + x; b <- b + a`, mod 256 (R90). -/
def fletcherStep (acc : Byte × Byte) (x : Byte) : Byte × Byte :=
  (acc.1 + x, acc.2 + (acc.1 + x))

/-- `Fletcher8(x)` (R90). -/
def fletcher8 (x : List Byte) : Byte × Byte := x.foldl fletcherStep (0, 0)

/-- The four header bytes the checksum covers first: class, id, length low, length high (R91). -/
def frameHeader (c i : Byte) (n : Nat) : List Byte :=
  [c, i, lowByte (BitVec.ofNat 16 n), highByte (BitVec.ofNat 16 n)]

/-- A frame with the checksum bytes as given (R70). -/
def frameWith (c i : Byte) (p : List Byte) (a b : Byte) : List Byte :=
  [sync1, sync2] ++ frameHeader c i p.length ++ p ++ [a, b]

/-- `Frame(c, i, p)` (R91): the checksum is over class..payload. -/
def frameBytes (c i : Byte) (p : List Byte) : List Byte :=
  let ck := fletcher8 (frameHeader c i p.length ++ p)
  frameWith c i p ck.1 ck.2

/-- `PollFrame(c, i) = Frame(c, i, [])` (R100). -/
def pollFrame (c i : Byte) : List Byte := frameBytes c i []

/-- The six bytes both acknowledgement templates begin with, for a marker (R74). -/
def ackHeader (p : Params) (mark : Byte) : List Byte :=
  [sync1, sync2, p.ackClass, mark, lowByte p.ackLen, highByte p.ackLen]

/-- `AckT(c, i)` (R110). -/
def ackTemplate (p : Params) (c i : Byte) : Vector Byte 8 :=
  #v[sync1, sync2, p.ackClass, p.ackMark, lowByte p.ackLen, highByte p.ackLen, c, i]

/-- `NakT(c, i)` (R110): the same but for index 3. -/
def nakTemplate (p : Params) (c i : Byte) : Vector Byte 8 :=
  #v[sync1, sync2, p.ackClass, p.nakMark, lowByte p.ackLen, highByte p.ackLen, c, i]

end Sys2Proof.Machine
end

