-- ==== Sys2Proof/Syntax.lean ====
section
/-! DEFINITION. The instructions (one constructor per row of spec/opcode_table.json), the host's accesses
(spec/30_encoding.md R85) and the moves of the four agents (spec/00_scope.md R7). -/

namespace Sys2Proof

/-- One constructor per row of the opcode table. The first thirteen are the operations a byte written to
OP selects (30_encoding.md R77, R79); the last four are the units of the wire (R70 to R75). -/
inductive Instr where
  /-- ENCODE, opcode 0x01 (40_command_encoder.md R93). -/
  | encode
  /-- TRANSMIT, opcode 0x02 (R95). -/
  | transmit
  /-- SEND_CMD, opcode 0x03 (R97). -/
  | sendCmd
  /-- ACK_WAIT, opcode 0x04 (41_ack_matcher.md R115). -/
  | ackWait
  /-- RECV_PAYLOAD, opcode 0x05 (42_payload_demux.md R136). -/
  | recvPayload
  /-- POLL, opcode 0x06 (R140). -/
  | poll
  /-- DECODE_PVT, opcode 0x07 (43_fix_decoder.md R166). -/
  | decodePvt
  /-- DECODE_POS, opcode 0x08 (R167). -/
  | decodePos
  /-- DECODE_STAT, opcode 0x09 (R168). -/
  | decodeStat
  /-- DECODE_TIME, opcode 0x0A (R169). -/
  | decodeTime
  /-- ACQUIRE_FIX, opcode 0x0B (R170, R171). -/
  | acquireFix
  /-- CFG_SEQ, opcode 0x0C (44_config_sequence.md R192). -/
  | cfgSeq
  /-- RESERVED, opcodes 0x00 and 0x0D to 0xFF (30_encoding.md R79). -/
  | reserved (opcode : Byte)
  /-- FRAME: a whole frame (R70) with the two checksum bytes it carries, which need not be right (R139). -/
  | frame (cls ident : Byte) (payload : List Byte) (ckA ckB : Byte)
  /-- ACK: the 8-byte ACK template for (cls, ident) and the bytes of the frame after it (R74, R110). -/
  | ack (cls ident : Byte) (tail : List Byte)
  /-- NAK: the 8-byte NAK template for (cls, ident) and the bytes of the frame after it (R74, R110). -/
  | nak (cls ident : Byte) (tail : List Byte)
  /-- POLL_REQUEST: the zero-length frame that requests the message (cls, ident) (R75, R100). -/
  | pollRequest (cls ident : Byte)
  deriving DecidableEq, Repr

/-- Where an instruction's bytes stand: in OP, on the receive stream, or in a frame the block sends
(R70, R75, R77; log 7). -/
inductive Source where
  | command
  | received
  | sent
  deriving DecidableEq, Repr

/-- The source an instruction belongs to. -/
def Instr.source : Instr → Source
  | .encode => .command
  | .transmit => .command
  | .sendCmd => .command
  | .ackWait => .command
  | .recvPayload => .command
  | .poll => .command
  | .decodePvt => .command
  | .decodePos => .command
  | .decodeStat => .command
  | .decodeTime => .command
  | .acquireFix => .command
  | .cfgSeq => .command
  | .reserved _ => .command
  | .frame _ _ _ _ _ => .received
  | .ack _ _ _ => .received
  | .nak _ _ _ => .received
  | .pollRequest _ _ => .sent

/-- The byte buffers (20_memory.md R54). -/
inductive Buffer where
  | txp
  | frame
  | resp
  deriving DecidableEq, Repr

/-- One host access (30_encoding.md R85): `R`, `W`, `BR`, `BW`, and `WAIT`, which repeats a read of
STATUS until DONE = 1 (log 17). -/
inductive Access where
  | readReg (index : BitVec 5)
  | writeReg (index : BitVec 5) (value : Word)
  | readBuf (buffer : Buffer) (index : Nat)
  | writeBuf (buffer : Buffer) (index : Nat) (value : Byte)
  | wait
  deriving DecidableEq, Repr

/-- What a host read returned. -/
inductive Reading where
  | reg (index : BitVec 5) (value : Word)
  | buf (buffer : Buffer) (index : Nat) (value : Byte)
  deriving DecidableEq, Repr

/-- One move of one agent (00_scope.md R7): the host makes its next access; the engine makes one step;
the receiver appends bytes to the receive stream; the clock advances; the reset input is asserted. -/
inductive Move where
  | host
  | engine
  | receiver (bytes : List Byte)
  | clock (ms : Nat)
  | reset
  deriving DecidableEq, Repr

end Sys2Proof
end

