-- ==== Sys2Proof/Machine/State.lean ====
section
/-! DEFINITION. The state of the block and of what it is attached to, the reasons a step can stop, and the
reset state (spec/10_state.md R20 to R43, spec/20_memory.md R54, spec/70_reset_and_hazards.md R230). -/

namespace Sys2Proof.Machine

/-- Why the machine stops with a fault. -/
inductive Fault where
  /-- Raised by an access of the engine at an index at or past the end of a buffer, or past NTEMPL. The
  spec says no admitted operation forms one (00_scope.md R12). Safe: the machine stops (log 15). -/
  | indexOutside (index size : Nat)
  deriving DecidableEq, Repr

/-- Why the model gives a host access no meaning: the host program is not admitted (60_exceptions.md R216). -/
inductive Refusal where
  /-- Raised by exec alone, for an instruction with no meaning yet (none is left). Safe. -/
  | notModelled (mnemonic : String)
  /-- Raised by a host access other than a read of STATUS while BUSY = 1 (10_state.md R31). Safe. -/
  | busyAccess
  /-- Raised by a host access to a reserved register index (10_state.md R37). Safe. -/
  | reservedIndex (index : BitVec 5)
  /-- Raised by a host write to FRAME, or a buffer access at or past the buffer's size (20_memory.md R55). Safe. -/
  | bufferAccess (buffer : Buffer) (index : Nat)
  /-- Raised when the host program sends a Gen2-only command under GEN1 (60_exceptions.md R206). Safe. -/
  | unsupportedVariant
  deriving DecidableEq, Repr

/-- `STATUS.ERR`, a 2-bit field whose four codes all have a name (60_exceptions.md R200). -/
inductive ErrCode where
  | none
  | fail
  | capacity
  | illegal
  deriving DecidableEq, Repr

/-- `STATUS` (10_state.md R22). Its reserved bits read 0 and the host cannot write it (log 22). -/
structure Status where
  busy : Bool
  done : Bool
  ok : Bool
  err : ErrCode
  acked : Bool
  deriving DecidableEq, Repr

/-- `ACQ_STATUS` (10_state.md R26). -/
structure AcqStatus where
  success : Bool
  p0Ok : Bool
  p1Ok : Bool
  p2Ok : Bool
  deriving DecidableEq, Repr

/-- `CFG_STATUS` (10_state.md R27). -/
structure CfgStatus where
  cfgOk : Bool
  attempted : BitVec 8
  stepOk : BitVec 8
  deriving DecidableEq, Repr

/-- The Fix record register file (10_state.md R24, R25). `lat` and `lon` are s32. -/
structure FixRecord where
  year : Half
  month : Byte
  day : Byte
  hour : Byte
  minute : Byte
  second : Byte
  lat : Word
  lon : Word
  alt : Half
  numSv : Byte
  fixType : Byte
  deriving DecidableEq, Repr

/-- `DMX_ST` (10_state.md R35, 42_payload_demux.md R130); `ckA` and `ckB` only in verify mode (R138). -/
inductive DmxState where
  | sync1
  | sync2
  | cls
  | ident
  | lenLo
  | lenHi
  | payload
  | ckA
  | ckB
  deriving DecidableEq, Repr

/-- The demultiplexer's state (10_state.md R35). -/
structure Dmx where
  st : DmxState
  len : Half
  cnt : Half
  ckA : Byte
  ckB : Byte
  deriving DecidableEq, Repr

/-- A buffer's bytes: (index, byte) cells, indexes strictly rising, no cell equal to what an unlisted
index reads as (Machine/Ops.lean: `blank`). -/
abbrev Memory := List Host.Cell

/-- The whole state. Field by field in INVENTORY.md, '## State'. -/
structure State where
  /-- The instance's parameters; no step changes them (00_scope.md R6, 10_state.md R40). -/
  inst : Instance
  /-- OP (R28). -/
  op : Byte
  /-- ARG_CLASS (R21). -/
  argClass : Byte
  /-- ARG_ID (R21). -/
  argId : Byte
  /-- ARG_PLEN (R21). -/
  argPlen : Half
  /-- ARG_CAP (R21). -/
  argCap : Half
  /-- ARG_TIMEOUT (R21). -/
  argTimeout : Word
  /-- ARG_TMPL (R21): no operation reads it. -/
  argTmpl : Byte
  /-- STATUS (R22). -/
  status : Status
  /-- RESULT_LEN (R23). -/
  resultLen : Half
  /-- FRAME_LEN (R23). -/
  frameLen : Word
  /-- ACQ_STATUS (R26). -/
  acqStatus : AcqStatus
  /-- CFG_STATUS (R27). -/
  cfgStatus : CfgStatus
  /-- VARIANT (R29). -/
  variant : Variant
  /-- FIX_YEAR to FIX_TYPE (R24). -/
  fixReg : FixRecord
  /-- CUR_OP (R32). -/
  curOp : Byte
  /-- PHASE (R32). -/
  phase : Nat
  /-- K (R32). -/
  kIdx : Nat
  /-- ACK_POS (R34). -/
  ackPos : Fin 8
  /-- ACK_BRANCH (R34). -/
  ackBranch : Bool
  /-- DMX_ST, DMX_LEN, DMX_CNT, DMX_CKA, DMX_CKB (R35). -/
  dmx : Dmx
  /-- T0 (R36). -/
  t0 : Nat
  /-- DEADLINE (R36). -/
  deadline : Nat
  /-- ACC_OK (R36). -/
  accOk : Bool
  /-- ACC_CAP (R36). -/
  accCap : Bool
  /-- The ATTEMPTED mask CFG_SEQ is building (R36, 44_config_sequence.md R192 `att`). -/
  attMask : BitVec 8
  /-- The STEP_OK mask CFG_SEQ is building (R36, R192 `okm`). -/
  okMask : BitVec 8
  /-- The model's own: the running wait has begun, its T0 is read (log 13). -/
  waiting : Bool
  /-- The interval of the sleep the engine is in, if it is in one (60_exceptions.md R221; log 13). -/
  asleep : Option Nat
  /-- TXP (20_memory.md R54). -/
  txp : Memory
  /-- FRAME (20_memory.md R54). -/
  frame : Memory
  /-- RESP (20_memory.md R54). -/
  resp : Memory
  /-- The clock agent's value, in ms (R39); outside the block. -/
  now : Nat
  /-- The receive stream, oldest byte first (R38, 00_scope.md R19); outside the block. -/
  rx : List Byte
  /-- The transmit stream: one entry per TxWrite, oldest first (R38); outside the block. -/
  tx : List (List Byte)
  /-- The Sleep calls made on the time port, oldest first (00_scope.md R13); outside the block. -/
  sleeps : List Nat
  /-- The host's accesses still to come (30_encoding.md R85); the host agent's. -/
  program : List Access
  /-- Which agent moves next (00_scope.md R7); the model's own (log 4). -/
  schedule : List Move
  /-- What the host has read, oldest first; the host agent's. -/
  reads : List Reading
  /-- The counter the free environment draws are applied to; the model's own (log 4). -/
  draws : Nat
  deriving DecidableEq, Repr

/-- The status word after reset: idle, no result (10_state.md R41). -/
def Status.reset : Status := { busy := false, done := false, ok := false, err := .none, acked := false }

/-- The demultiplexer at reset and at the start of every receive (10_state.md R35, R41). -/
def Dmx.reset : Dmx := { st := .sync1, len := 0, cnt := 0, ckA := 0, ckB := 0 }

/-- The Fix registers after reset: all 0, FIX_ALT too (10_state.md R41, 70_reset_and_hazards.md R233). -/
def FixRecord.reset : FixRecord :=
  { year := 0, month := 0, day := 0, hour := 0, minute := 0, second := 0, lat := 0, lon := 0, alt := 0,
    numSv := 0, fixType := 0 }

/-- The state right after reset of the block of a given instance, in an environment that has done nothing
yet: every value of the block is R41's; the environment's are the model's choice (log 12). -/
def State.resetOf (inst : Instance) : State where
  inst := inst
  op := 0
  argClass := 0
  argId := 0
  argPlen := 0
  argCap := 0
  argTimeout := 0
  argTmpl := 0
  status := Status.reset
  resultLen := 0
  frameLen := 0
  acqStatus := { success := false, p0Ok := false, p1Ok := false, p2Ok := false }
  cfgStatus := { cfgOk := false, attempted := 0, stepOk := 0 }
  variant := inst.p.variant
  fixReg := FixRecord.reset
  curOp := 0
  phase := 0
  kIdx := 0
  ackPos := 0
  ackBranch := false
  dmx := Dmx.reset
  t0 := 0
  deadline := 0
  accOk := false
  accCap := false
  attMask := 0
  okMask := 0
  waiting := false
  asleep := none
  txp := []
  frame := []
  resp := []
  now := 0
  rx := []
  tx := []
  sleeps := []
  program := []
  schedule := []
  reads := []
  draws := 0

/-- The machine right after reset (10_state.md R41, 70_reset_and_hazards.md R230). -/
def State.reset : State := State.resetOf Config.chip

end Sys2Proof.Machine
end

