-- ==== Sys2Proof/Machine/Ops.lean ====
section
/-! DEFINITION. The named operations over buffers, the ports and the registers: reading and writing a
buffer (spec/20_memory.md R54, R55), the environment primitives (spec/00_scope.md R13), completion (R15),
which is also how every error is reported (spec/60_exceptions.md R212: there is no trap), issue
(spec/10_state.md R30) and reset (spec/70_reset_and_hazards.md R230). -/

namespace Sys2Proof.Machine

/-! ## Buffers -/

/-- What a buffer byte that no cell lists reads as: 0x00, the reset contents (10_state.md R41; log 14). -/
def blank : Byte := 0

/-- The byte at an index. -/
def Memory.read : Memory → Nat → Byte
  | [], _ => blank
  | (b, w) :: m, a => if a = b then w else Memory.read m a

/-- Store a byte, keeping the canonical form: storing `blank` removes the cell. -/
def Memory.write : Memory → Nat → Byte → Memory
  | [], a, v => if v = blank then [] else [(a, v)]
  | (b, w) :: m, a, v =>
    if a < b then (if v = blank then (b, w) :: m else (a, v) :: (b, w) :: m)
    else if a = b then (if v = blank then m else (a, v) :: m)
    else (b, w) :: Memory.write m a v

/-- The n bytes from an index on, the lowest index first. -/
def Memory.readRange (m : Memory) (a n : Nat) : List Byte :=
  (List.range n).map (fun j => Memory.read m (a + j))

/-- Store bytes from an index on, the first at the lowest index. -/
def Memory.writeRange : Memory → Nat → List Byte → Memory
  | m, _, [] => m
  | m, a, v :: vs => Memory.writeRange (Memory.write m a v) (a + 1) vs

/-- The canonical form, from an index on: indexes strictly rising, no cell equal to `blank`. -/
def Memory.wfFrom : Nat → Memory → Bool
  | _, [] => true
  | lo, (a, v) :: m => decide (lo ≤ a) && decide (v ≠ blank) && Memory.wfFrom (a + 1) m

/-- The canonical form. -/
def Memory.wf (m : Memory) : Bool := Memory.wfFrom 0 m

/-- Every cell lies below an index: the buffer's size. -/
def Memory.within (n : Nat) (m : Memory) : Bool := m.all (fun c => decide (c.1 < n))

/-- The parameters of the instance. -/
abbrev State.par (s : State) : Params := s.inst.p

/-- The size of a buffer (20_memory.md R54). -/
def bufferSize (p : Params) : Buffer → Nat
  | .txp => p.txpSize
  | .frame => p.txpSize + 8
  | .resp => p.respSize

/-- The contents of a buffer. -/
def State.buffer (s : State) : Buffer → Memory
  | .txp => s.txp
  | .frame => s.frame
  | .resp => s.resp

/-! ## The ports -/

/-- `RxAvail()` (10_state.md R38): a u16 count, which saturates here; only zero or not is used
(DESIGN CHOICE, log 11). -/
def State.rxAvail (s : State) : Half := BitVec.ofNat 16 (min s.rx.length 65535)

/-- The receiver appends bytes to the receive stream (10_state.md R38). -/
def State.rxAppend (s : State) (bs : List Byte) : State := { s with rx := s.rx ++ bs }

/-- `TxWrite(b)` (10_state.md R38): one write, in order, without a failure result. -/
def State.txWrite (s : State) (bs : List Byte) : State := { s with tx := s.tx ++ [bs] }

/-- The clock advances; successive reads never decrease (10_state.md R39). -/
def State.advance (s : State) (ms : Nat) : State := { s with now := s.now + ms }

/-- `Sleep(ms)` (00_scope.md R13, 60_exceptions.md R221): the call goes to the time port and the engine is
in its sleep; how far the clock advances meanwhile is the clock's (log 20). -/
def State.sleep (s : State) (ms : Nat) : State := { s with sleeps := s.sleeps ++ [ms], asleep := some ms }

/-- The engine's next iteration wakes it (60_exceptions.md R221). -/
def State.wake (s : State) : State := { s with asleep := none }

/-- Where a clock that pauses `pause k` moves before its k-th advance stands at its n-th move: the number of
the next advance, and how many moves it still stands before it. -/
def clockPlace (pause : Nat → Nat) : Nat → Nat × Nat
  | 0 => (0, pause 0)
  | n + 1 =>
    match clockPlace pause n with
    | (k, 0) => (k + 1, pause (k + 1))
    | (k, left + 1) => (k, left)

/-- How far that clock, whose k-th advance is by `rise k + 1`, advances at its n-th move. These are exactly
the fair clocks (10_state.md R39): Laws/Clock.lean. -/
def fairDraw (pause rise : Nat → Nat) (n : Nat) : Nat :=
  match clockPlace pause n with
  | (k, 0) => rise k + 1
  | (_, _ + 1) => 0

/-- How far the clock advances at the n-th move for which the schedule scripts nothing: a free value, but
for the fairness of 10_state.md R39 (93_implementation_defined.md I7; log 4). -/
def clockDraw (n : Nat) : Nat := fairDraw Config.clockPause Config.clockRise n

/-- A move for which the schedule scripts nothing: the clock advances and bytes arrive by free values
(10_state.md R38, R39, 93_implementation_defined.md I7, I8; log 4). -/
def State.freeDraw (s : State) : State :=
  { s with now := s.now + clockDraw s.draws
           rx := s.rx ++ Config.arrivalDraw s.draws
           draws := s.draws + 1 }

/-! ## Completion, issue, reset -/

/-- `finish(ok, err)` (00_scope.md R15), in one update. It ends a failed operation as it ends a successful
one: the block has no trap (60_exceptions.md R212). -/
def State.finish (s : State) (ok : Bool) (err : ErrCode) : State :=
  { s with status := { s.status with busy := false, done := true, ok := ok, err := err }
           waiting := false }

/-- `STATUS.ACKED <- a` (10_state.md R22). -/
def State.setAcked (s : State) (a : Bool) : State := { s with status := { s.status with acked := a } }

/-- The end of an operation whose failure is a timeout or a NAK: `finish(b, b ? NONE : FAIL)`
(60_exceptions.md R200). -/
def State.finishOkOrFail (s : State) (b : Bool) : State := s.finish b (if b then .none else .fail)

/-- Issue (10_state.md R30): OP and CUR_OP take the opcode, STATUS is cleared but for BUSY, PHASE is 0. -/
def State.issue (s : State) (v : Byte) : State :=
  { s with op := v
           status := { busy := true, done := false, ok := false, err := .none, acked := false }
           curOp := v
           phase := 0
           waiting := false }

/-- Reset (70_reset_and_hazards.md R230, R232): every piece of the block's state takes its value of
10_state.md R41; the streams, the clock, the host and the record of what crossed the ports are untouched. -/
def State.assertReset (s : State) : State :=
  { State.resetOf s.inst with
      now := s.now
      rx := s.rx
      tx := s.tx
      sleeps := s.sleeps
      program := s.program
      schedule := s.schedule
      reads := s.reads
      draws := s.draws }

/-! ## Frames -/

/-- `EncodeToFrame(c, i, p)` (40_command_encoder.md R92): bytes of FRAME past the frame keep their values. -/
def State.encodeToFrame (s : State) (c i : Byte) (p : List Byte) : State :=
  { s with frame := Memory.writeRange s.frame 0 (frameBytes c i p)
           frameLen := BitVec.ofNat 32 (p.length + 8) }

/-- `TxWrite(FRAME[0 .. FRAME_LEN-1])` (40_command_encoder.md R95). -/
def State.txFrame (s : State) : Except Fault State :=
  if s.frameLen.toNat ≤ bufferSize s.par .frame then
    .ok (s.txWrite (Memory.readRange s.frame 0 s.frameLen.toNat))
  else .error (.indexOutside s.frameLen.toNat (bufferSize s.par .frame))

/-- The poll request of (c, i), PHASE 3j and 3j+1 of a poll in one step (00_scope.md R14, 42_payload_demux.md
R140, 43_fix_decoder.md R170, R171; log 5): `EncodeToFrame(c, i, [])`, then `TxWrite(FRAME[0 .. 7])`. -/
def State.sendPollRequest (s : State) (c i : Byte) : State :=
  let s1 := s.encodeToFrame c i []
  { s1.txWrite (Memory.readRange s1.frame 0 8) with phase := s.phase + 2 }

/-- The outcome of an operation that can only go on or stop with a fault. -/
def outcome : Except Fault State → Host.Outcome State Fault Refusal
  | .ok s => .next s
  | .error f => .fault f

end Sys2Proof.Machine
end

