-- ==== Sys2Proof/Machine/Operands.lean ====
section
/-! DEFINITION. The operands of the operations, taken whole from the argument registers
(spec/30_encoding.md R80), the argument checks made at issue (R78), and the payload field readers
(spec/43_fix_decoder.md R161). -/

namespace Sys2Proof.Machine

/-- The payload operand of ENCODE and SEND_CMD: `TXP[0 .. ARG_PLEN-1]` (40_command_encoder.md R93, R97). -/
def State.txpPayload (s : State) : List Byte := Memory.readRange s.txp 0 s.argPlen.toNat

/-- The timeout operand: an unsigned count of milliseconds, widened to Nat (30_encoding.md R80). -/
def State.timeout (s : State) : Nat := s.argTimeout.toNat

/-- `ARG_PLEN > TXP_SIZE`: ENCODE and SEND_CMD finish ILLEGAL (R78). -/
def State.badPlen (s : State) : Bool := decide (s.par.txpSize < s.argPlen.toNat)

/-- `ARG_CAP > RESP_SIZE`: RECV_PAYLOAD and POLL finish ILLEGAL (R78). -/
def State.badCap (s : State) : Bool := decide (s.par.respSize < s.argCap.toNat)

/-- `FRAME_LEN = 0`: TRANSMIT finishes ILLEGAL (R78). -/
def State.noFrame (s : State) : Bool := decide (s.frameLen = 0)

/-- `rdU8(o)` (43_fix_decoder.md R161). -/
def State.rdU8 (s : State) (o : Nat) : Byte := Memory.read s.resp o

/-- `rdU16(o)` (R161). -/
def State.rdU16 (s : State) (o : Nat) : Half := le16 (s.rdU8 o) (s.rdU8 (o + 1))

/-- `rdS32(o)` (R161): the 32 bits, whose value as an s32 is `BitVec.toInt`. -/
def State.rdS32 (s : State) (o : Nat) : Word :=
  le32 (s.rdU8 o) (s.rdU8 (o + 1)) (s.rdU8 (o + 2)) (s.rdU8 (o + 3))

/-- The (class, id) of the poll of an ACQUIRE_FIX (43_fix_decoder.md R170: the one Gen2 message; R171:
messages A, B, C of Gen1 in that order). -/
def acquireTarget (p : Params) (v : Variant) (j : Nat) : Byte × Byte :=
  match v with
  | .gen2 => (p.pvtClass, p.pvtId)
  | .gen1 =>
    match j with
    | 0 => (p.posClass, p.posId)
    | 1 => (p.statClass, p.statId)
    | _ => (p.timeClass, p.timeId)

/-- Whether CFG_SEQ sends a template under a variant (44_config_sequence.md R192). -/
def applicable (v : Variant) (t : Template) : Bool := !(t.gen2Only && decide (v = .gen1))

/-- The first template CFG_SEQ sends at or after index k (R192: a skipped one is passed over). -/
def nextTemplate (p : Params) (v : Variant) (k : Nat) : Option Nat :=
  (List.range p.templates.length).find?
    (fun j => decide (k ≤ j) && (match p.templates[j]? with | some t => applicable v t | none => false))

end Sys2Proof.Machine
end

