-- ==== Sys2Proof/Machine/Waits.lean ====
section
/-! DEFINITION. The two byte-matching machines as pure step functions and the wait loops around them
(spec/41_ack_matcher.md R111 to R119, spec/42_payload_demux.md R130 to R139). -/

namespace Sys2Proof.Machine

/-! ## The ACK/NAK matcher -/

/-- What `AckStep` answers: the new position and branch, and the outcome if the template is complete. -/
structure AckOut where
  pos : Fin 8
  branch : Bool
  result : Option Bool
  deriving DecidableEq, Repr

/-- `AckStep(pos, branch, b, c, i)` (R111). A byte that matches neither template resets the position and is
dropped, at every position (R113). -/
def ackStep (p : Params) (c i : Byte) (pos : Fin 8) (branch : Bool) (b : Byte) : AckOut :=
  if b = (ackTemplate p c i).get pos ∨ b = (nakTemplate p c i).get pos then
    let branch' := if pos = 3 then decide (b = (ackTemplate p c i).get 3) else branch
    if pos = 7 then { pos := 0, branch := branch', result := some branch' }
    else { pos := pos + 1, branch := branch', result := none }
  else { pos := 0, branch := branch, result := none }

/-- The start of an ACK wait (R112): the matcher is cleared, T0 is read, the deadline computed without wrap. -/
def State.ackBegin (s : State) : State :=
  { s with ackPos := 0, ackBranch := false, t0 := s.now, deadline := s.now + s.timeout, waiting := true }

/-- One byte into the matcher (R112). -/
def State.ackByte (s : State) (c i b : Byte) : State × Option Bool :=
  let r := ackStep s.par c i s.ackPos s.ackBranch b
  ({ s with ackPos := r.pos, ackBranch := r.branch }, r.result)

/-- One iteration of the ACK wait loop (R112): the deadline test, then the sleep if no byte is available,
else one byte (R118, R119). -/
def State.ackIter (s0 : State) (c i : Byte) : State × Option Bool :=
  let s := s0.wake
  if s.deadline < s.now then (s, some false)
  else
    match s.rx with
    | [] => (s.sleep s.par.pollSleepAckMs, none)
    | b :: rest => State.ackByte { s with rx := rest } c i b

/-- One engine step of `AckWait(c, i, t)`: its start, or one iteration. The wait is over when an outcome is
answered. -/
def State.ackWait (s : State) (c i : Byte) : State × Option Bool :=
  if s.waiting then
    match s.ackIter c i with
    | (s', some a) => ({ s' with waiting := false }, some a)
    | (s', none) => (s', none)
  else (s.ackBegin, none)

/-! ## The payload demultiplexer -/

/-- What a receive ends with (R131). -/
inductive RecvResult where
  | ok (n : Half)
  | capExceeded
  | timeout
  deriving DecidableEq, Repr

/-- What `DmxStep` answers: the new state, the index of RESP the byte is copied to, if it is, and the
result if the receive is over. -/
structure DmxOut where
  next : Dmx
  store : Option Nat
  result : Option RecvResult
  deriving DecidableEq, Repr

/-- The running receive checksum (R138 `acc`), as R90. -/
def Dmx.acc (d : Dmx) (b : Byte) : Dmx :=
  { d with ckA := (fletcherStep (d.ckA, d.ckB) b).1, ckB := (fletcherStep (d.ckA, d.ckB) b).2 }

/-- The checksum of the byte, in verify mode only (R138, R139). -/
def Dmx.accIf (verify : Bool) (d : Dmx) (b : Byte) : Dmx := if verify then d.acc b else d

/-- No result yet, nothing copied. -/
def dmxGo (d : Dmx) (st : DmxState) : DmxOut := { next := { d with st := st }, store := none, result := none }

/-- The CLASS state's match in verify mode clears the checksum first (R138). -/
def Dmx.clearIf (verify : Bool) (d : Dmx) : Dmx := if verify then { d with ckA := 0, ckB := 0 } else d

/-- The LEN_HI state (R132, R133, R134, R138): the capacity guard, then the payload, or at once the end of
a frame without one. -/
def dmxLenHi (verify : Bool) (cap : Half) (d0 : Dmx) (b : Byte) : DmxOut :=
  let d1 := d0.accIf verify b
  let d := { d1 with len := d1.len ||| (b.setWidth 16 <<< 8) }
  if cap < d.len then { next := d, store := none, result := some .capExceeded }
  else
    let d' := { d with cnt := 0 }
    if d'.len = 0 then
      if verify then dmxGo d' .ckA
      else { next := d', store := none, result := some (.ok 0) }
    else dmxGo d' .payload

/-- The PAYLOAD state (R132, R138): copy the byte; the declared length ends the frame, or in verify mode
leads to its checksum. -/
def dmxPayload (verify : Bool) (d0 : Dmx) (b : Byte) : DmxOut :=
  let d1 := d0.accIf verify b
  let d := { d1 with cnt := d1.cnt + 1 }
  if d.cnt = d.len then
    if verify then { next := { d with st := .ckA }, store := some d0.cnt.toNat, result := none }
    else { next := d, store := some d0.cnt.toNat, result := some (.ok d.cnt) }
  else { next := d, store := some d0.cnt.toNat, result := none }

/-- `DmxStep(b, c, i, cap)` (R132, and R138 when `verify`). A header byte that is not the expected one is
dropped and not looked at again (R135). -/
def dmxStep (verify : Bool) (c i : Byte) (cap : Half) (d : Dmx) (b : Byte) : DmxOut :=
  match d.st with
  | .sync1 => dmxGo d (if b = sync1 then .sync2 else .sync1)
  | .sync2 => dmxGo d (if b = sync2 then .cls else .sync1)
  | .cls => if b = c then dmxGo ((d.clearIf verify).accIf verify b) .ident else dmxGo d .sync1
  | .ident => if b = i then dmxGo (d.accIf verify b) .lenLo else dmxGo d .sync1
  | .lenLo => dmxGo { d.accIf verify b with len := b.setWidth 16 } .lenHi
  | .lenHi => dmxLenHi verify cap d b
  | .payload => dmxPayload verify d b
  | .ckA => dmxGo d (if b = d.ckA then .ckB else .sync1)
  | .ckB =>
    if b = d.ckB then { next := d, store := none, result := some (.ok d.len) }
    else dmxGo d .sync1

/-- `RESP[k] <- b` by the engine. -/
def State.storeResp (s : State) (k : Nat) (b : Byte) : Except Fault State :=
  if k < bufferSize s.par .resp then .ok { s with resp := Memory.write s.resp k b }
  else .error (.indexOutside k (bufferSize s.par .resp))

/-- The start of a receive (R131). -/
def State.recvBegin (s : State) : State :=
  { s with dmx := Dmx.reset, t0 := s.now, deadline := s.now + s.timeout, waiting := true }

/-- One byte into the demultiplexer (R131). -/
def State.recvByte (s : State) (c i : Byte) (cap : Half) (b : Byte) : Except Fault (State × Option RecvResult) :=
  let r := dmxStep s.par.verifyRxChecksum c i cap s.dmx b
  match r.store with
  | none => .ok ({ s with dmx := r.next }, r.result)
  | some k =>
    match s.storeResp k b with
    | .ok s' => .ok ({ s' with dmx := r.next }, r.result)
    | .error f => .error f

/-- One iteration of the receive loop (R131, R137, R144). -/
def State.recvIter (s0 : State) (c i : Byte) (cap : Half) : Except Fault (State × Option RecvResult) :=
  let s := s0.wake
  if s.deadline < s.now then .ok (s, some .timeout)
  else
    match s.rx with
    | [] => .ok (s.sleep s.par.pollSleepDmxMs, none)
    | b :: rest => State.recvByte { s with rx := rest } c i cap b

/-- One engine step of `RecvPayload(c, i, cap, t)`: its start, or one iteration. The receive is over when a
result is answered. -/
def State.recvWait (s : State) (c i : Byte) (cap : Half) : Except Fault (State × Option RecvResult) :=
  if s.waiting then
    match s.recvIter c i cap with
    | .ok (s', some r) => .ok ({ s' with waiting := false }, some r)
    | .ok (s', none) => .ok (s', none)
    | .error f => .error f
  else .ok (s.recvBegin, none)

/-- Whether a receive succeeded. -/
def RecvResult.succeeded : RecvResult → Bool
  | .ok _ => true
  | .capExceeded => false
  | .timeout => false

/-- `RESULT_LEN <- ok ? n : 0` (10_state.md R23, R136). -/
def RecvResult.length : RecvResult → Half
  | .ok n => n
  | .capExceeded => 0
  | .timeout => 0

/-- The ERR code of a single receive (R136). -/
def RecvResult.err : RecvResult → ErrCode
  | .ok _ => .none
  | .capExceeded => .capacity
  | .timeout => .fail

/-- The result mapping of RECV_PAYLOAD and POLL (R136, R140). -/
def State.recvFinish (s : State) (r : RecvResult) : State :=
  State.finish { s with resultLen := r.length } r.succeeded r.err

end Sys2Proof.Machine
end

