-- ==== Sys2Proof/Machine/AckMatcher.lean ====
section
/-! DEFINITION. ACK_WAIT (spec/41_ack_matcher.md). -/

namespace Sys2Proof.Machine

/-- ACK_WAIT (R115): one engine step of the wait, and the completion when it is over. -/
def execAckWait (s : State) : Host.Outcome State Fault Refusal :=
  match s.ackWait s.argClass s.argId with
  | (s', none) => .next s'
  | (s', some a) => .next ((s'.setAcked a).finishOkOrFail a)

end Sys2Proof.Machine
end

