-- ==== Sys2Proof/Machine/Flags.lean ====
section
/-! DEFINITION. The flag words as the host reads them and the flag computations of the composite
operations (spec/10_state.md R22, R26, R27, R33, spec/44_config_sequence.md R193). -/

namespace Sys2Proof.Machine

/-- A flag bit at a position of a word. -/
def flagBit (b : Bool) (n : Nat) : Word := if b then BitVec.ofNat 32 (2 ^ n) else 0

/-- The code of `STATUS.ERR` (60_exceptions.md R200). -/
def ErrCode.code : ErrCode → Nat
  | .none => 0
  | .fail => 1
  | .capacity => 2
  | .illegal => 3

/-- `STATUS` as a word: BUSY bit 0, DONE bit 1, OK bit 2, ERR bits 5:4, ACKED bit 8; the rest read 0
(10_state.md R22). -/
def Status.word (st : Status) : Word :=
  flagBit st.busy 0 ||| flagBit st.done 1 ||| flagBit st.ok 2 ||| BitVec.ofNat 32 (16 * st.err.code) |||
    flagBit st.acked 8

/-- `ACQ_STATUS` as a word (10_state.md R26). -/
def AcqStatus.word (a : AcqStatus) : Word :=
  flagBit a.success 0 ||| flagBit a.p0Ok 1 ||| flagBit a.p1Ok 2 ||| flagBit a.p2Ok 3

/-- `CFG_STATUS` as a word: CFG_OK bit 0, ATTEMPTED bits 15:8, STEP_OK bits 23:16; bits 7:1 read 0
(10_state.md R27). -/
def CfgStatus.word (c : CfgStatus) : Word :=
  flagBit c.cfgOk 0 ||| BitVec.ofNat 32 (256 * c.attempted.toNat) ||| BitVec.ofNat 32 (65536 * c.stepOk.toNat)

/-- `VARIANT` reads 0 for GEN1 and 1 for GEN2 (10_state.md R29). -/
def variantWord : Variant → Word
  | .gen1 => 0
  | .gen2 => 1

/-- Bit k of a mask of CFG_SEQ set to b (44_config_sequence.md R192, `att[K] <- 1; okm[K] <- a`). -/
def setMaskBit (m : BitVec 8) (k : Nat) (b : Bool) : BitVec 8 :=
  if b then m ||| (1#8 <<< k) else m &&& ~~~(1#8 <<< k)

/-- `ACQ_STATUS.P{j}_OK <- b` (43_fix_decoder.md R171). -/
def AcqStatus.setPoll (a : AcqStatus) (j : Nat) (b : Bool) : AcqStatus :=
  match j with
  | 0 => { a with p0Ok := b }
  | 1 => { a with p1Ok := b }
  | _ => { a with p2Ok := b }

/-- The ERR code of a Gen1 acquisition: `acc ? NONE : (cap_seen ? CAPACITY : FAIL)` (43_fix_decoder.md
R171, 60_exceptions.md R209). -/
def acquireErr (acc capSeen : Bool) : ErrCode :=
  if acc then .none else if capSeen then .capacity else .fail

end Sys2Proof.Machine
end

