-- ==== Sys2Proof/Machine/ConfigSequence.lean ====
section
/-! DEFINITION. CFG_SEQ (spec/44_config_sequence.md). -/

namespace Sys2Proof.Machine

/-- The end of CFG_SEQ (R192, R193). -/
def cfgFinish (s : State) : State :=
  State.finishOkOrFail
    { s with cfgStatus := { cfgOk := s.accOk, attempted := s.attMask, stepOk := s.okMask } } s.accOk

/-- PHASE 3K (R192): the encode of template K. -/
def cfgEncode (s : State) (k : Nat) : Host.Outcome State Fault Refusal :=
  match s.par.templates[k]? with
  | some t => .next { s.encodeToFrame t.cls t.ident t.payload with kIdx := k, phase := 3 * k + 1 }
  | none => .fault (.indexOutside k s.par.templates.length)

/-- The first step (R192): the accumulators are set, and the first template to send is encoded; with no
template to send the operation is over. -/
def cfgStart (s : State) : Host.Outcome State Fault Refusal :=
  let s1 := { s with accOk := true, attMask := 0, okMask := 0 }
  match nextTemplate s.par s.variant 0 with
  | some k => cfgEncode s1 k
  | none => .next (cfgFinish s1)

/-- The outcome of template K in the accumulators (R192: `att[K] <- 1; okm[K] <- a; ACC_OK <- ACC_OK AND a`). -/
def cfgAccumulate (s : State) (a : Bool) : State :=
  { s with attMask := setMaskBit s.attMask s.kIdx true
           okMask := setMaskBit s.okMask s.kIdx a
           accOk := s.accOk && a }

/-- The end of the ACK wait of template K (R192): the outcome is recorded, and the sequence goes on with the
next template to send, or is over. STATUS.ACKED is a result register, which the host sees change only in the
one update that `finish` makes (00_scope.md R15, 20_memory.md R57), so it takes the outcome of the last wait
there; while BUSY = 1 STATUS stays as the issue left it. -/
def cfgRecord (s : State) (a : Bool) : State :=
  match nextTemplate s.par s.variant (s.kIdx + 1) with
  | some k => { cfgAccumulate s a with kIdx := k, phase := 3 * k }
  | none => cfgFinish ((cfgAccumulate s a).setAcked a)

/-- PHASE 3K+2 (R192): one engine step of the ACK wait of template K. -/
def cfgWait (s : State) : Host.Outcome State Fault Refusal :=
  match s.par.templates[s.kIdx]? with
  | some t =>
    match s.ackWait t.cls t.ident with
    | (s', none) => .next s'
    | (s', some a) => .next (cfgRecord s' a)
  | none => .fault (.indexOutside s.kIdx s.par.templates.length)

/-- CFG_SEQ (R192): one engine step of it, by PHASE (log 5). -/
def execCfgSeq (s : State) : Host.Outcome State Fault Refusal :=
  if s.phase = 0 then cfgStart s
  else
    match s.phase % 3 with
    | 0 => cfgEncode s s.kIdx
    | 1 =>
      match s.txFrame with
      | .ok s' => .next { s' with phase := s.phase + 1 }
      | .error f => .fault f
    | _ => cfgWait s

end Sys2Proof.Machine
end

