-- ==== Sys2Proof/Machine/Demux.lean ====
section
/-! DEFINITION. RECV_PAYLOAD and POLL (spec/42_payload_demux.md). -/

namespace Sys2Proof.Machine

/-- One engine step of the receive of RECV_PAYLOAD and POLL, and the completion when it is over (R136). -/
def recvStepFinish (s : State) : Host.Outcome State Fault Refusal :=
  match s.recvWait s.argClass s.argId s.argCap with
  | .ok (s', none) => .next s'
  | .ok (s', some r) => .next (s'.recvFinish r)
  | .error f => .fault f

/-- RECV_PAYLOAD (R136): the argument check before the receive begins, then one engine step of it. -/
def execRecvPayload (s : State) : Host.Outcome State Fault Refusal :=
  if s.waiting = false ∧ s.badCap = true then .next (s.finish false .illegal)
  else recvStepFinish s

/-- POLL (R140): PHASE 0 and 1, the argument check and the poll request; PHASE 2, one engine step of the
receive. -/
def execPoll (s : State) : Host.Outcome State Fault Refusal :=
  match s.phase with
  | 0 =>
    if s.badCap then .next (s.finish false .illegal)
    else .next (s.sendPollRequest s.argClass s.argId)
  | _ => recvStepFinish s

end Sys2Proof.Machine
end

