-- ==== Sys2Proof/Machine/Encoder.lean ====
section
/-! DEFINITION. ENCODE, TRANSMIT and SEND_CMD (spec/40_command_encoder.md). -/

namespace Sys2Proof.Machine

/-- ENCODE (R93). -/
def execEncode (s : State) : Host.Outcome State Fault Refusal :=
  if s.badPlen then .next (s.finish false .illegal)
  else .next ((s.encodeToFrame s.argClass s.argId s.txpPayload).finish true .none)

/-- TRANSMIT (R95). -/
def execTransmit (s : State) : Host.Outcome State Fault Refusal :=
  if s.noFrame then .next (s.finish false .illegal)
  else
    match s.txFrame with
    | .ok s' => .next (s'.finish true .none)
    | .error f => .fault f

/-- PHASE 0 of SEND_CMD (R97): the argument check and the encode. -/
def sendCmdEncode (s : State) : State :=
  if s.badPlen then s.finish false .illegal
  else { s.encodeToFrame s.argClass s.argId s.txpPayload with phase := 1 }

/-- PHASE 2 of SEND_CMD (R97): one engine step of the ACK wait, and the completion when it is over. -/
def sendCmdWait (s : State) : State :=
  match s.ackWait s.argClass s.argId with
  | (s', none) => s'
  | (s', some a) => (s'.setAcked a).finishOkOrFail a

/-- SEND_CMD (R97): one engine step of it, by PHASE (log 5). -/
def execSendCmd (s : State) : Host.Outcome State Fault Refusal :=
  match s.phase with
  | 0 => .next (sendCmdEncode s)
  | 1 =>
    match s.txFrame with
    | .ok s' => .next { s' with phase := 2 }
    | .error f => .fault f
  | _ => .next (sendCmdWait s)

end Sys2Proof.Machine
end

