-- ==== Sys2Proof/Machine/FixDecoder.lean ====
section
/-! DEFINITION. The payload decoders, the altitude policy and ACQUIRE_FIX (spec/43_fix_decoder.md). -/

namespace Sys2Proof.Machine

/-- `AltNorm(r)` (R165): millimetres to metres, rounded toward zero, clamped to [1, 50000]. -/
def altNorm (r : Word) : Half :=
  let m := Int.tdiv r.toInt 1000
  if m ≤ 0 then 1 else if 50000 < m then 50000 else BitVec.ofInt 16 m

/-- `DecodePVT()` (R166): all eleven FIX_* registers, from RESP as it is (R162). -/
def State.decodePvt (s : State) : State :=
  let o := s.par.offPvt
  { s with fixReg :=
      { year := s.rdU16 o.year
        month := s.rdU8 o.month
        day := s.rdU8 o.day
        hour := s.rdU8 o.hour
        minute := s.rdU8 o.minute
        second := s.rdU8 o.second
        lat := s.rdS32 o.lat
        lon := s.rdS32 o.lon
        alt := altNorm (s.rdS32 o.alt)
        numSv := s.rdU8 o.numSv
        fixType := s.rdU8 o.fixType } }

/-- `DecodePOS()` (R167): FIX_LAT, FIX_LON, FIX_ALT. -/
def State.decodePos (s : State) : State :=
  let o := s.par.offPos
  { s with fixReg :=
      { s.fixReg with
          lat := s.rdS32 o.lat
          lon := s.rdS32 o.lon
          alt := altNorm (s.rdS32 o.alt) } }

/-- `DecodeSTAT()` (R168): FIX_TYPE, FIX_NUMSV. -/
def State.decodeStat (s : State) : State :=
  let o := s.par.offStat
  { s with fixReg :=
      { s.fixReg with
          fixType := s.rdU8 o.fixType
          numSv := s.rdU8 o.numSv } }

/-- `DecodeTIME()` (R169): FIX_YEAR .. FIX_SECOND. -/
def State.decodeTime (s : State) : State :=
  let o := s.par.offTime
  { s with fixReg :=
      { s.fixReg with
          year := s.rdU16 o.year
          month := s.rdU8 o.month
          day := s.rdU8 o.day
          hour := s.rdU8 o.hour
          minute := s.rdU8 o.minute
          second := s.rdU8 o.second } }

/-- DECODE_PVT (R166). -/
def execDecodePvt (s : State) : Host.Outcome State Fault Refusal := .next (s.decodePvt.finish true .none)

/-- DECODE_POS (R167). -/
def execDecodePos (s : State) : Host.Outcome State Fault Refusal := .next (s.decodePos.finish true .none)

/-- DECODE_STAT (R168). -/
def execDecodeStat (s : State) : Host.Outcome State Fault Refusal := .next (s.decodeStat.finish true .none)

/-- DECODE_TIME (R169). -/
def execDecodeTime (s : State) : Host.Outcome State Fault Refusal := .next (s.decodeTime.finish true .none)

/-- The capacity of an acquisition's polls: `RESP_SIZE` (R170, R171). -/
def State.acquireCap (s : State) : Half := BitVec.ofNat 16 s.par.respSize

/-- The end of the one Gen2 poll (R170): the decode runs on success only. -/
def acquireEndGen2 (s : State) (r : RecvResult) : State :=
  let s1 := { s with resultLen := r.length }
  let s2 := if r.succeeded then s1.decodePvt else s1
  State.finish
    { s2 with acqStatus := { success := r.succeeded, p0Ok := r.succeeded, p1Ok := false, p2Ok := false } }
    r.succeeded r.err

/-- The decode of Gen1 message j (R171). -/
def State.decodeGen1 (s : State) (j : Nat) : State :=
  match j with
  | 0 => s.decodePos
  | 1 => s.decodeStat
  | _ => s.decodeTime

/-- The end of Gen1 poll j (R171): its decode always runs; after the third poll the acquisition is over. -/
def acquireEndGen1 (s : State) (j : Nat) (r : RecvResult) : State :=
  let s1 := { s with resultLen := r.length
                     accCap := s.accCap || decide (r = RecvResult.capExceeded) }
  let s2 := s1.decodeGen1 j
  let s3 := { s2 with acqStatus := s2.acqStatus.setPoll j r.succeeded
                      accOk := s2.accOk && r.succeeded }
  if 2 ≤ j then
    State.finish { s3 with acqStatus := { s3.acqStatus with success := s3.accOk } } s3.accOk
      (acquireErr s3.accOk s3.accCap)
  else { s3 with phase := 3 * (j + 1) }

/-- What an acquisition does at the end of the poll of its PHASE (R170, R171): the decode included, which so
runs in the engine step of the receive's last iteration, for messages A and B of Gen1 too. 00_scope.md R14
calls a decode a step of its own and names a merge only with the step that follows it: DESIGN CHOICE, log 28. -/
def acquireEnd (s : State) (r : RecvResult) : State :=
  match s.variant with
  | .gen2 => acquireEndGen2 s r
  | .gen1 => acquireEndGen1 s (s.phase / 3) r

/-- The first step of an acquisition sets `acc <- 1; cap_seen <- 0` (R171). -/
def acquireInit (s : State) : State :=
  if s.phase = 0 then { s with accOk := true, accCap := false } else s

/-- ACQUIRE_FIX (R170, R171): the poll request of the message whose turn it is (PHASE 3j and 3j+1), or one
engine step of its receive (PHASE 3j+2); the decode is in the step of the receive's last iteration (DESIGN
CHOICE, log 28). -/
def execAcquireFix (s : State) : Host.Outcome State Fault Refusal :=
  let t := acquireTarget s.par s.variant (s.phase / 3)
  if s.phase % 3 = 0 then .next ((acquireInit s).sendPollRequest t.1 t.2)
  else
    match s.recvWait t.1 t.2 s.acquireCap with
    | .ok (s', none) => .next s'
    | .ok (s', some r) => .next (acquireEnd s' r)
    | .error f => .fault f

end Sys2Proof.Machine
end

