-- ==== Sys2Proof/Machine/Illegal.lean ====
section
/-! DEFINITION. The reserved opcodes (spec/30_encoding.md R79, spec/60_exceptions.md R205). -/

namespace Sys2Proof.Machine

/-- RESERVED (R79): `finish(0, ILLEGAL)`, nothing else; OP already holds the byte (10_state.md R30). -/
def execReserved (s : State) : Host.Outcome State Fault Refusal := .next (s.finish false .illegal)

end Sys2Proof.Machine
end

