-- ==== Sys2Proof/WellFormed.lean ====
section
/-! DEFINITION. Which instruction terms are well-formed: a decidable check per constructor. -/

namespace Sys2Proof

/-- The opcodes of the twelve operations are 0x01 to 0x0C; every other byte is reserved (30_encoding.md
R77, R79). -/
def reservedOpcode (b : Byte) : Bool := decide (b = 0) || decide (0x0D ≤ b)

/-- The class, marker and length that make a frame an acknowledgement frame under p (R74). -/
def ackShaped (p : Params) (c i : Byte) (n : Nat) : Bool :=
  decide (c = p.ackClass) && (decide (i = p.ackMark) || decide (i = p.nakMark)) && decide (n = p.ackLen.toNat)

/-- `Instr.wellFormed p i`: a RESERVED term holds a reserved opcode (R79); a FRAME's payload has a length
that 16 bits can give (R71), and the frame is not an acknowledgement frame, which is a row of its own
(R74); what follows an ACK or NAK template is as long as the frame's length field says (R71, R74: 8 + L
bytes in all, 8 of them the template). -/
def Instr.wellFormed (p : Params) : Instr → Bool
  | .encode => true
  | .transmit => true
  | .sendCmd => true
  | .ackWait => true
  | .recvPayload => true
  | .poll => true
  | .decodePvt => true
  | .decodePos => true
  | .decodeStat => true
  | .decodeTime => true
  | .acquireFix => true
  | .cfgSeq => true
  | .reserved b => reservedOpcode b
  | .frame c i pl _ _ => decide (pl.length ≤ 65535) && !ackShaped p c i pl.length
  | .ack _ _ tail => decide (tail.length = p.ackLen.toNat)
  | .nak _ _ tail => decide (tail.length = p.ackLen.toNat)
  | .pollRequest _ _ => true

end Sys2Proof
end

