-- ==== Sys2Proof/Decode.lean ====
section
/-! DEFINITION. Decoding bytes to an instruction, total and rejecting by name, and the encoder
(spec/30_encoding.md R70 to R79, spec/opcode_table.json). -/

namespace Sys2Proof

/-- Why bytes are no instruction of the source they stand in. -/
inductive DecodeError where
  /-- A command encoding is one byte (30_encoding.md R77, R82). -/
  | notOneByte
  /-- Fewer bytes than a header (R70). -/
  | truncated
  /-- Byte 0 is not 0xB5 (R70, R76). -/
  | badSync1
  /-- Byte 1 is not 0x62 (R70, R76). -/
  | badSync2
  /-- The bytes are not 8 + L long, L being the length field (R71). -/
  | wrongLength
  /-- A frame the block sends that is no poll request: its length is not 0 (R75). -/
  | notPollRequest
  /-- A poll request whose checksum bytes are not Fletcher8 of its header (R100). -/
  | badChecksum
  deriving DecidableEq, Repr

/-- The operation an opcode byte selects (30_encoding.md R77, R79): every bit takes part in the match. -/
def decodeOp (b : Byte) : Instr :=
  match b.toNat with
  | 0x01 => .encode
  | 0x02 => .transmit
  | 0x03 => .sendCmd
  | 0x04 => .ackWait
  | 0x05 => .recvPayload
  | 0x06 => .poll
  | 0x07 => .decodePvt
  | 0x08 => .decodePos
  | 0x09 => .decodeStat
  | 0x0A => .decodeTime
  | 0x0B => .acquireFix
  | 0x0C => .cfgSeq
  | _ => .reserved b

/-- What stands after the header of a received frame of length L (R70, R74): an acknowledgement frame is
recognized by its class, marker and length; any other frame is a FRAME. -/
def decodeReceivedBody (p : Params) (c i : Byte) (n : Nat) (body : List Byte) : Except DecodeError Instr :=
  if ackShaped p c i n then
    match body with
    | b6 :: b7 :: tail => .ok (if i = p.ackMark then .ack b6 b7 tail else .nak b6 b7 tail)
    | _ => .error .truncated
  else
    match body.drop n with
    | [a, b] => .ok (.frame c i (body.take n) a b)
    | _ => .error .wrongLength

/-- What stands after the header of a sent frame, read as a poll request (R75, R100). -/
def decodeSentBody (c i : Byte) (n : Nat) (body : List Byte) : Except DecodeError Instr :=
  if n ≠ 0 then .error .notPollRequest
  else if body = [(Machine.fletcher8 (Machine.frameHeader c i 0)).1,
                  (Machine.fletcher8 (Machine.frameHeader c i 0)).2] then .ok (.pollRequest c i)
  else .error .badChecksum

/-- One whole wire unit: sync bytes, header, and exactly the bytes its length field announces
(R70, R71, R73). -/
def decodeWire (p : Params) (sent : Bool) (bs : List Byte) : Except DecodeError Instr :=
  match bs with
  | s1 :: s2 :: c :: i :: l0 :: l1 :: body =>
    if s1 ≠ Machine.sync1 then .error .badSync1
    else if s2 ≠ Machine.sync2 then .error .badSync2
    else if body.length ≠ (Machine.le16 l0 l1).toNat + 2 then .error .wrongLength
    else if sent then decodeSentBody c i (Machine.le16 l0 l1).toNat body
    else decodeReceivedBody p c i (Machine.le16 l0 l1).toNat body
  | _ => .error .truncated

/-- The decoder: the bytes of one instruction, by the place they stand in. -/
def decode (p : Params) (src : Source) (bs : List Byte) : Except DecodeError Instr :=
  match src with
  | .command =>
    match bs with
    | [b] => .ok (decodeOp b)
    | _ => .error .notOneByte
  | .received => decodeWire p false bs
  | .sent => decodeWire p true bs

/-- The encoder: the bytes of an instruction, from the spec's encoding tables (30_encoding.md R70, R74,
R75, R77). -/
def encode (p : Params) : Instr → List Byte
  | .encode => [0x01]
  | .transmit => [0x02]
  | .sendCmd => [0x03]
  | .ackWait => [0x04]
  | .recvPayload => [0x05]
  | .poll => [0x06]
  | .decodePvt => [0x07]
  | .decodePos => [0x08]
  | .decodeStat => [0x09]
  | .decodeTime => [0x0A]
  | .acquireFix => [0x0B]
  | .cfgSeq => [0x0C]
  | .reserved b => [b]
  | .frame c i pl a b => Machine.frameWith c i pl a b
  | .ack c i tail => Machine.ackHeader p p.ackMark ++ [c, i] ++ tail
  | .nak c i tail => Machine.ackHeader p p.nakMark ++ [c, i] ++ tail
  | .pollRequest c i => Machine.pollFrame c i

/-- The first `nbits / 8` bytes of a table word: the first byte on the wire is the most significant in
the table's hex string (opcode_table.json, the note of its WIRE rows; DEDUCED, log 7). -/
def tableBytes (nbits w : Nat) : List Byte :=
  (List.range (nbits / 8)).map (fun j => BitVec.ofNat 8 (w / 2 ^ (8 * (nbits / 8 - 1 - j))))

/-- A table word of the wire laid out as one unit: the bits above `nbits` zero, up to the 8 + L bytes its
length field announces. -/
def tableWireBytes (nbits w : Nat) : List Byte :=
  let bs := tableBytes nbits w ++ List.replicate (6 - nbits / 8) 0
  let n := (Machine.le16 (bs.getD 4 0) (bs.getD 5 0)).toNat
  bs ++ List.replicate (8 + n - bs.length) 0

/-- The place a table word stands in: a word of one byte is an opcode; a wire word that gives the whole
six-byte header with a length of 0 is a poll request (the POLL_REQUEST row's mask covers the length,
the FRAME row's does not); every other wire word is a received unit (DEDUCED, log 7). -/
def tableSource (nbits w : Nat) : Source :=
  if nbits ≤ 8 then .command
  else if 48 ≤ nbits ∧ ((tableBytes nbits w).getD 4 0 = 0 ∧ (tableBytes nbits w).getD 5 0 = 0) then .sent
  else .received

/-- The bytes of a table word. -/
def tableWordBytes (nbits w : Nat) : List Byte :=
  if nbits ≤ 8 then [BitVec.ofNat 8 w] else tableWireBytes nbits w

/-- The instruction the decoder reads from a word of the opcode table. -/
def decodeTableWord (nbits w : Nat) : Option Instr :=
  match decode Config.chipParams (tableSource nbits w) (tableWordBytes nbits w) with
  | .ok i => some i
  | .error _ => none

end Sys2Proof
end

