-- ==== Sys2Proof/Machine/Wire.lean ====
section
/-! DEFINITION. The units of the wire (spec/30_encoding.md R70 to R75): the frames that come in through
the transport port, and the poll request that goes out (log 6). -/

namespace Sys2Proof.Machine

/-- FRAME (R70): the receiver appends the frame to the receive stream (10_state.md R38). Nothing of it is
looked at before a wait consumes it (00_scope.md R19, 42_payload_demux.md R139). -/
def execFrame (c i : Byte) (payload : List Byte) (a b : Byte) (s : State) : Host.Outcome State Fault Refusal :=
  .next (s.rxAppend (encode s.par (.frame c i payload a b)))

/-- ACK (R74): the receiver appends the acknowledgement of (c, i) to the receive stream (10_state.md R38). -/
def execAck (c i : Byte) (tail : List Byte) (s : State) : Host.Outcome State Fault Refusal :=
  .next (s.rxAppend (encode s.par (.ack c i tail)))

/-- NAK (R74): the receiver appends the negative acknowledgement of (c, i) to the receive stream
(10_state.md R38). -/
def execNak (c i : Byte) (tail : List Byte) (s : State) : Host.Outcome State Fault Refusal :=
  .next (s.rxAppend (encode s.par (.nak c i tail)))

/-- POLL_REQUEST (R75, R100): the block builds the poll request of (c, i) in FRAME and hands it to the
transport: PHASE 3j and 3j+1 of POLL and ACQUIRE_FIX. -/
def execPollRequest (c i : Byte) (s : State) : Host.Outcome State Fault Refusal :=
  .next (s.sendPollRequest c i)

end Sys2Proof.Machine
end

