-- ==== Sys2Proof/Machine/Dispatch.lean ====
section
/-! DEFINITION. One arm per instruction. exec of an operation is one engine step of it (spec/00_scope.md
R14, log 5). -/

namespace Sys2Proof.Machine

def exec (i : Instr) (s : State) : Host.Outcome State Fault Refusal :=
  match i with
  | .encode => Sys2Proof.Machine.execEncode s
  | .transmit => Sys2Proof.Machine.execTransmit s
  | .sendCmd => Sys2Proof.Machine.execSendCmd s
  | .ackWait => Sys2Proof.Machine.execAckWait s
  | .recvPayload => Sys2Proof.Machine.execRecvPayload s
  | .poll => Sys2Proof.Machine.execPoll s
  | .decodePvt => Sys2Proof.Machine.execDecodePvt s
  | .decodePos => Sys2Proof.Machine.execDecodePos s
  | .decodeStat => Sys2Proof.Machine.execDecodeStat s
  | .decodeTime => Sys2Proof.Machine.execDecodeTime s
  | .acquireFix => Sys2Proof.Machine.execAcquireFix s
  | .cfgSeq => Sys2Proof.Machine.execCfgSeq s
  | .reserved _ => Sys2Proof.Machine.execReserved s
  | .frame c ident payload a b => Sys2Proof.Machine.execFrame c ident payload a b s
  | .ack c ident tail => Sys2Proof.Machine.execAck c ident tail s
  | .nak c ident tail => Sys2Proof.Machine.execNak c ident tail s
  | .pollRequest c ident => Sys2Proof.Machine.execPollRequest c ident s

end Sys2Proof.Machine
end

