-- ==== Sys2Proof/Machine/Fetch.lean ====
section
/-! DEFINITION. Where an instruction is fetched from, and a state in which a given table word is the next
one fetched (spec/10_state.md R30, R32, spec/42_payload_demux.md R140; logs 7, 8). -/

namespace Sys2Proof.Machine

/-- The operation the engine runs: the byte in CUR_OP (10_state.md R30, R32). -/
def State.currentInstr (s : State) : Instr := decodeOp s.curOp

/-- The wire unit a batch of arriving bytes is, if it is exactly one (30_encoding.md R70, R74). -/
def State.arrivingInstr (s : State) (bs : List Byte) : Except DecodeError Instr := decode s.par .received bs

/-- The engine is put at PHASE 0 of POLL for (c, i): its next step is the poll request of (c, i)
(42_payload_demux.md R140). -/
def State.atPollRequest (s : State) (c i : Byte) : State :=
  { s.issue 0x06 with argClass := c, argId := i, argCap := 0, schedule := .engine :: s.schedule }

/-- The state in which the instruction of a table word is the next one run: an opcode has just been
issued (10_state.md R30) and the engine moves; a received unit arrives; a poll request is the next
sub-operation of a POLL. -/
def State.placeTableWord (s : State) (nbits w : Nat) : State :=
  match tableSource nbits w with
  | .command => { s.issue (BitVec.ofNat 8 w) with schedule := .engine :: s.schedule }
  | .received => { s with schedule := .receiver (tableWordBytes nbits w) :: s.schedule }
  | .sent =>
    s.atPollRequest ((tableWordBytes nbits w).getD 2 0) ((tableWordBytes nbits w).getD 3 0)

end Sys2Proof.Machine
end

