-- ==== Sys2Proof/Machine/HostPort.lean ====
section
/-! DEFINITION. The host's side: register and buffer accesses, issue, WAIT, the admission conditions, and
the pseudo-instructions (spec/10_state.md R20, R30, R31, R37, spec/20_memory.md R55,
spec/30_encoding.md R85, R86, spec/60_exceptions.md R206, R216). -/

namespace Sys2Proof.Machine

/-- The value of a register, zero-extended to 32 bits; none for a reserved index (10_state.md R20, R37). -/
def State.regValue (s : State) (index : BitVec 5) : Option Word :=
  match index.toNat with
  | 0x00 => some (s.op.setWidth 32)
  | 0x01 => some (s.argClass.setWidth 32)
  | 0x02 => some (s.argId.setWidth 32)
  | 0x03 => some (s.argPlen.setWidth 32)
  | 0x04 => some (s.argCap.setWidth 32)
  | 0x05 => some s.argTimeout
  | 0x06 => some (s.argTmpl.setWidth 32)
  | 0x08 => some s.status.word
  | 0x09 => some (s.resultLen.setWidth 32)
  | 0x0A => some s.frameLen
  | 0x0B => some s.acqStatus.word
  | 0x0C => some s.cfgStatus.word
  | 0x0D => some (variantWord s.variant)
  | 0x10 => some (s.fixReg.year.setWidth 32)
  | 0x11 => some (s.fixReg.month.setWidth 32)
  | 0x12 => some (s.fixReg.day.setWidth 32)
  | 0x13 => some (s.fixReg.hour.setWidth 32)
  | 0x14 => some (s.fixReg.minute.setWidth 32)
  | 0x15 => some (s.fixReg.second.setWidth 32)
  | 0x16 => some s.fixReg.lat
  | 0x17 => some s.fixReg.lon
  | 0x18 => some (s.fixReg.alt.setWidth 32)
  | 0x19 => some (s.fixReg.numSv.setWidth 32)
  | 0x1A => some (s.fixReg.fixType.setWidth 32)
  | _ => none

/-- A host write of a 32-bit value (10_state.md R20): the low bits are stored; a write of OP issues the
operation (R28, R30); a write of a read-only register changes nothing (DEDUCED, log 9); none for a
reserved index (R37). -/
def State.regWrite (s : State) (index : BitVec 5) (w : Word) : Option State :=
  match index.toNat with
  | 0x00 => some (s.issue (w.setWidth 8))
  | 0x01 => some { s with argClass := w.setWidth 8 }
  | 0x02 => some { s with argId := w.setWidth 8 }
  | 0x03 => some { s with argPlen := w.setWidth 16 }
  | 0x04 => some { s with argCap := w.setWidth 16 }
  | 0x05 => some { s with argTimeout := w }
  | 0x06 => some { s with argTmpl := w.setWidth 8 }
  | _ => if (s.regValue index).isSome then some s else none

/-- The index of STATUS, the one register the host may read while BUSY = 1 (10_state.md R20, R31). -/
def statusIndex : BitVec 5 := 0x08

/-- The host records what it read. -/
def State.record (s : State) (r : Reading) : State := { s with reads := s.reads ++ [r] }

/-- A host register read. -/
def hostReadReg (s : State) (index : BitVec 5) : Host.Outcome State Fault Refusal :=
  if s.status.busy ∧ index ≠ statusIndex then .refused .busyAccess
  else
    match s.regValue index with
    | some v => .next (s.record (.reg index v))
    | none => .refused (.reservedIndex index)

/-- A host register write. -/
def hostWriteReg (s : State) (index : BitVec 5) (w : Word) : Host.Outcome State Fault Refusal :=
  if s.status.busy then .refused .busyAccess
  else
    match s.regWrite index w with
    | some s' => .next s'
    | none => .refused (.reservedIndex index)

/-- `HostBufRead(BUF, i)` (20_memory.md R55). -/
def hostReadBuf (s : State) (b : Buffer) (i : Nat) : Host.Outcome State Fault Refusal :=
  if s.status.busy then .refused .busyAccess
  else if i < bufferSize s.par b then .next (s.record (.buf b i (Memory.read (s.buffer b) i)))
  else .refused (.bufferAccess b i)

/-- `HostBufWrite(BUF, i, v)`: TXP and RESP only (20_memory.md R55). -/
def hostWriteBuf (s : State) (b : Buffer) (i : Nat) (v : Byte) : Host.Outcome State Fault Refusal :=
  if s.status.busy then .refused .busyAccess
  else if i < bufferSize s.par b then
    match b with
    | .txp => .next { s with txp := Memory.write s.txp i v }
    | .frame => .refused (.bufferAccess b i)
    | .resp => .next { s with resp := Memory.write s.resp i v }
  else .refused (.bufferAccess b i)

/-- One poll of WAIT: a read of STATUS, and again until DONE = 1 (30_encoding.md R85; log 17). -/
def hostWait (s : State) : State :=
  let s1 := s.record (.reg statusIndex s.status.word)
  if s.status.done then s1 else { s1 with program := .wait :: s1.program }

/-- One host access, already taken off the program. -/
def hostAccess (a : Access) (s : State) : Host.Outcome State Fault Refusal :=
  match a with
  | .readReg index => hostReadReg s index
  | .writeReg index w => hostWriteReg s index w
  | .readBuf b i => hostReadBuf s b i
  | .writeBuf b i v => hostWriteBuf s b i v
  | .wait => .next (hostWait s)

/-- Whether (c, i) is the (class, id) of a Gen2-only template (60_exceptions.md R206). -/
def gen2OnlyTarget (p : Params) (c i : Byte) : Bool :=
  p.templates.any (fun t => t.gen2Only && decide (t.cls = c) && decide (t.ident = i))

/-- The opcodes R206 names: ENCODE, TRANSMIT and SEND_CMD. -/
def sendsCommand (v : Byte) : Bool := decide (v = 0x01) || decide (v = 0x02) || decide (v = 0x03)

/-- The static check of R206 on a host program, from the values ARG_CLASS and ARG_ID hold: under GEN1 it
issues no ENCODE, TRANSMIT or SEND_CMD whose (ARG_CLASS, ARG_ID) is a Gen2-only template's. -/
def programAdmitted (p : Params) (v : Variant) : Byte → Byte → List Access → Bool
  | _, _, [] => true
  | c, i, .writeReg index w :: rest =>
    if index = 0 then
      !(gen2OnlyTarget p c i && sendsCommand (w.setWidth 8) && decide (v = .gen1)) && programAdmitted p v c i rest
    else if index = 1 then programAdmitted p v (w.setWidth 8) i rest
    else if index = 2 then programAdmitted p v c (w.setWidth 8) rest
    else programAdmitted p v c i rest
  | c, i, .readReg _ :: rest => programAdmitted p v c i rest
  | c, i, .readBuf _ _ :: rest => programAdmitted p v c i rest
  | c, i, .writeBuf _ _ _ :: rest => programAdmitted p v c i rest
  | c, i, .wait :: rest => programAdmitted p v c i rest

/-- The host's move: its next access, if it has one. A program that breaks R206 is refused before any of
its accesses runs (DEDUCED, log 10). -/
def hostMove (s : State) : Host.Outcome State Fault Refusal :=
  if programAdmitted s.par s.variant s.argClass s.argId s.program then
    match s.program with
    | [] => .next s
    | a :: rest => hostAccess a { s with program := rest }
  else .refused .unsupportedVariant

/-! ## Host-program text (30_encoding.md R85, R86) -/

/-- `ISSUE <opcode>`. -/
def issueAccess (opcode : Byte) : Access := .writeReg 0x00 (opcode.setWidth 32)

/-- `WTXP` / `WRESP <i>, <b0>, <b1>, ...`. -/
def writeBytes (b : Buffer) : Nat → List Byte → List Access
  | _, [] => []
  | i, v :: vs => .writeBuf b i v :: writeBytes b (i + 1) vs

/-- `RFRAME` / `RRESP` / `RTXP <i>, <n>`. -/
def readBytes (b : Buffer) (i n : Nat) : List Access := (List.range n).map (fun j => .readBuf b (i + j))

/-- `ENCODE c, i, n` (R86). -/
def encodeProgram (c i : Byte) (n : Half) : List Access :=
  [.writeReg 0x01 (c.setWidth 32), .writeReg 0x02 (i.setWidth 32), .writeReg 0x03 (n.setWidth 32),
   issueAccess 0x01, .wait]

/-- `SEND c, i, n, t` (R86). -/
def sendProgram (c i : Byte) (n : Half) (t : Word) : List Access :=
  [.writeReg 0x01 (c.setWidth 32), .writeReg 0x02 (i.setWidth 32), .writeReg 0x03 (n.setWidth 32),
   .writeReg 0x05 t, issueAccess 0x03, .wait]

/-- `ACKW c, i, t` (R86). -/
def ackWaitProgram (c i : Byte) (t : Word) : List Access :=
  [.writeReg 0x01 (c.setWidth 32), .writeReg 0x02 (i.setWidth 32), .writeReg 0x05 t, issueAccess 0x04, .wait]

/-- `RECV c, i, cap, t` (R86). -/
def recvProgram (c i : Byte) (cap : Half) (t : Word) : List Access :=
  [.writeReg 0x01 (c.setWidth 32), .writeReg 0x02 (i.setWidth 32), .writeReg 0x04 (cap.setWidth 32),
   .writeReg 0x05 t, issueAccess 0x05, .wait]

/-- `POLLP c, i, cap, t` (R86). -/
def pollProgram (c i : Byte) (cap : Half) (t : Word) : List Access :=
  [.writeReg 0x01 (c.setWidth 32), .writeReg 0x02 (i.setWidth 32), .writeReg 0x04 (cap.setWidth 32),
   .writeReg 0x05 t, issueAccess 0x06, .wait]

/-- `FIX t` (R86). -/
def fixProgram (t : Word) : List Access := [.writeReg 0x05 t, issueAccess 0x0B, .wait]

/-- `CONFIG t` (R86). -/
def configProgram (t : Word) : List Access := [.writeReg 0x05 t, issueAccess 0x0C, .wait]

/-- `DEC <MNEMONIC>` (R86), by its opcode. -/
def decProgram (opcode : Byte) : List Access := [issueAccess opcode, .wait]

end Sys2Proof.Machine
end

