-- ==== Sys2Proof/Machine/Step.lean ====
section
/-! DEFINITION. One step of the whole machine: one move of one agent (spec/00_scope.md R7, R8, R14). -/

namespace Sys2Proof.Machine

/-- The engine's move: while BUSY, one engine step of the operation in CUR_OP; idle, nothing
(00_scope.md R14, 10_state.md R30, R32). -/
def engineMove (s : State) : Host.Outcome State Fault Refusal :=
  if s.status.busy then exec s.currentInstr s else .next s

/-- The receiver's move: bytes are appended to the receive stream, as the wire unit they are or as they
come (10_state.md R38). -/
def receiverMove (bs : List Byte) (s : State) : Host.Outcome State Fault Refusal :=
  match s.arrivingInstr bs with
  | .ok i => exec i s
  | .error _ => .next (s.rxAppend bs)

/-- One scheduled move. -/
def runMove (m : Move) (s : State) : Host.Outcome State Fault Refusal :=
  match m with
  | .host => hostMove s
  | .engine => engineMove s
  | .receiver bs => receiverMove bs s
  | .clock ms => .next (s.advance ms)
  | .reset => .next s.assertReset

/-- The move of a machine with nothing scheduled: the engine's while it is BUSY, else the host's (log 4). -/
def runUnscheduled (s : State) : Host.Outcome State Fault Refusal :=
  if s.status.busy then engineMove s else hostMove s

/-- One step: the next move of the schedule; with none left the environment is a free value (log 4). -/
def step (s : State) : Host.Outcome State Fault Refusal :=
  match s.schedule with
  | m :: rest => runMove m { s with schedule := rest }
  | [] => runUnscheduled s.freeDraw

/-- The state in which the very next step fetches and runs the instruction of a table word (log 8). -/
def State.withFetchWord (s : State) (nbits w : Nat) : State := s.placeTableWord nbits w

end Sys2Proof.Machine
end

