-- ==== Sys2Proof/Safety.lean ====
section
/-! DEFINITION. What a safe run is, in the terms the statements use: the invariants of the machine, and the
predicate by which a host may trust a fix (spec/43_fix_decoder.md R176). -/

namespace Sys2Proof.Machine

/-- The three buffers are in their one canonical form and hold nothing at or past their size
(20_memory.md R54). -/
def BuffersCanonical (s : State) : Prop :=
  (s.txp.wf = true ∧ Memory.within (bufferSize s.par .txp) s.txp = true) ∧
  (s.frame.wf = true ∧ Memory.within (bufferSize s.par .frame) s.frame = true) ∧
  (s.resp.wf = true ∧ Memory.within (bufferSize s.par .resp) s.resp = true)

/-- STATUS is a legal word (10_state.md R22, R30, 00_scope.md R15, 60_exceptions.md R201): a running operation
shows no result yet, ACKED included; a finished one has OK = 1 iff ERR = NONE; before the first operation there
is no result. -/
def StatusLegal (s : State) : Prop :=
  (s.status.busy = true → s.status.done = false ∧ s.status.acked = false) ∧
  (s.status.done = true → (s.status.ok = true ↔ s.status.err = ErrCode.none)) ∧
  (s.status.done = false → s.status.ok = false ∧ s.status.err = ErrCode.none)

/-- The operations that run the demultiplexer: RECV_PAYLOAD, POLL, ACQUIRE_FIX. -/
def receives (v : Byte) : Prop := v = 0x05 ∨ v = 0x06 ∨ v = 0x0B

/-- The capacity of the receive of the running operation: ARG_CAP, or RESP_SIZE in ACQUIRE_FIX
(43_fix_decoder.md R170, R171). -/
def capacityOf (s : State) : Nat := if s.curOp = 0x0B then s.par.respSize else s.argCap.toNat

/-- The sequencing state forms no index outside a buffer or the template table (00_scope.md R12,
42_payload_demux.md R132: "DMX_CNT < DMX_LEN ≤ cap ≤ RESP_SIZE"). -/
structure IndexesInside (s : State) : Prop where
  frameLen : s.frameLen.toNat ≤ bufferSize s.par .frame
  payload : s.status.busy = true → receives s.curOp → s.waiting = true → s.dmx.st = DmxState.payload →
    s.dmx.cnt.toNat < s.dmx.len.toNat ∧ s.dmx.len.toNat ≤ capacityOf s
  recvCap : s.status.busy = true → s.curOp = 0x05 → s.waiting = true → s.argCap.toNat ≤ s.par.respSize
  pollCap : s.status.busy = true → s.curOp = 0x06 → s.phase ≠ 0 → s.argCap.toNat ≤ s.par.respSize
  template : s.status.busy = true → s.curOp = 0x0C → s.phase ≠ 0 → s.kIdx < s.par.templates.length

/-- FRAME[0 .. FRAME_LEN-1] is a frame the encoder built (30_encoding.md R83, 40_command_encoder.md R95), or
nothing has been encoded since reset; at a transmit of SEND_CMD or CFG_SEQ there is one. -/
structure FrameHeld (s : State) : Prop where
  canonical : s.frame.wf = true
  held : s.frameLen = 0 ∨ ∃ (c i : Byte) (p : List Byte), p.length ≤ s.par.txpSize ∧
    s.frameLen.toNat = p.length + 8 ∧ Memory.readRange s.frame 0 (p.length + 8) = frameBytes c i p
  sending : s.status.busy = true → ((s.curOp = 0x03 ∧ s.phase ≠ 0) ∨ (s.curOp = 0x0C ∧ s.phase % 3 = 1)) →
    s.frameLen ≠ 0

/-- A record of a configuration sequence (44_config_sequence.md R193): STEP_OK ⊆ ATTEMPTED, and CFG_OK = 1
iff STEP_OK = ATTEMPTED. -/
def CfgRecord (ok : Bool) (attempted stepOk : BitVec 8) : Prop :=
  stepOk &&& attempted = stepOk ∧ (ok = true ↔ stepOk = attempted)

/-- CFG_STATUS is as reset left it or is a record (R193); the accumulators of a running CFG_SEQ are a record
of the templates before K. -/
structure CfgStatusLegal (s : State) : Prop where
  recorded : s.cfgStatus = { cfgOk := false, attempted := 0, stepOk := 0 } ∨
    CfgRecord s.cfgStatus.cfgOk s.cfgStatus.attempted s.cfgStatus.stepOk
  running : s.status.busy = true → s.curOp = 0x0C → s.phase ≠ 0 →
    CfgRecord s.accOk s.attMask s.okMask ∧ ∀ j, s.kIdx ≤ j → s.attMask.getLsbD j = false

/-- A running CFG_SEQ stands at a template that its variant admits (44_config_sequence.md R192, R196,
60_exceptions.md R206), and between the encode and the write FRAME[0 .. FRAME_LEN-1] is that template's frame. -/
structure CfgTargetApplicable (s : State) : Prop where
  canonical : s.frame.wf = true
  target : s.status.busy = true → s.curOp = 0x0C → s.phase ≠ 0 →
    ∃ t, s.par.templates[s.kIdx]? = some t ∧ ¬ (t.gen2Only = true ∧ s.variant = .gen1) ∧
      (s.phase % 3 = 1 → s.frameLen.toNat = t.payload.length + 8 ∧
        Memory.readRange s.frame 0 (t.payload.length + 8) = frameBytes t.cls t.ident t.payload)

/-- What a host must check before it trusts FIX_LAT, FIX_LON and the time fields (43_fix_decoder.md R176,
60_exceptions.md R216 duty H-7). The block computes no such bit (00_scope.md R18). -/
def FixTrusted (s : State) : Prop :=
  s.acqStatus.success = true ∧ s.par.fix3dCode ≤ s.fixReg.fixType.toNat ∧ s.par.satMin ≤ s.fixReg.numSv.toNat

/-- The STATUS of a finished operation (00_scope.md R15). -/
def finished (ok : Bool) (err : ErrCode) (acked : Bool) : Status :=
  { busy := false, done := true, ok := ok, err := err, acked := acked }

/-- The STATUS an operation whose only failures are a timeout and a NAK finishes with
(60_exceptions.md R200). -/
def finishedOkOrFail (b : Bool) (acked : Bool) : Status := finished b (if b then .none else .fail) acked

/-- The engine runs the operation v: BUSY = 1 and CUR_OP holds v (10_state.md R30, R32). -/
def Running (s : State) (v : Byte) : Prop := s.status.busy = true ∧ s.curOp = v

/-- The operation's wait has begun and its deadline has not passed (41_ack_matcher.md R118). -/
def WaitOpen (s : State) : Prop := s.waiting = true ∧ s.now ≤ s.deadline

/-- The acknowledgement template of (c, i): ACK for true, NAK for false (41_ack_matcher.md R110). -/
def templateOf (p : Params) (c i : Byte) (acked : Bool) : List Byte :=
  [0xB5, 0x62, p.ackClass, if acked then p.ackMark else p.nakMark, lowByte p.ackLen, highByte p.ackLen, c, i]

/-- The value an 8-bit argument register holds after some host accesses, from the value it holds before them:
the low byte of the last write of its index, if there is one (10_state.md R20, R21). -/
def argByteAfter (index : BitVec 5) : Byte → List Access → Byte
  | held, [] => held
  | held, .writeReg j w :: rest => argByteAfter index (if j = index then w.setWidth 8 else held) rest
  | held, _ :: rest => argByteAfter index held rest

/-- One iteration of the receive of an ACQUIRE_FIX in state s ends it with `ok` or not, n the length then
delivered, `capped` when the declared length exceeded RESP_SIZE, and leaves u (42_payload_demux.md R132, R133,
R134, R137, R138): in default mode the last payload byte, or the high length byte of a frame without payload;
in verify mode the right second checksum byte; a declared length above RESP_SIZE; or the deadline. -/
def AcquirePollEnds (s u : State) (ok capped : Bool) (n : Half) : Prop :=
  (∃ b rest, s.now ≤ s.deadline ∧ s.rx = b :: rest ∧
    ((s.par.verifyRxChecksum = false ∧ s.dmx.st = .payload ∧ s.dmx.cnt + 1 = s.dmx.len ∧
        s.dmx.cnt.toNat < s.par.respSize ∧ ok = true ∧ capped = false ∧ n = s.dmx.len ∧
        u = { s with
          rx := rest, asleep := none, waiting := false, dmx := { s.dmx with cnt := s.dmx.len }
          resp := Memory.write s.resp s.dmx.cnt.toNat b }) ∨
      (s.par.verifyRxChecksum = false ∧ s.dmx.st = .lenHi ∧ s.dmx.len = 0 ∧ b = 0 ∧
        ok = true ∧ capped = false ∧ n = 0 ∧
        u = { s with rx := rest, asleep := none, waiting := false, dmx := { s.dmx with cnt := 0 } }) ∨
      (s.par.verifyRxChecksum = true ∧ s.dmx.st = .ckB ∧ b = s.dmx.ckB ∧
        ok = true ∧ capped = false ∧ n = s.dmx.len ∧
        u = { s with rx := rest, asleep := none, waiting := false }) ∨
      (s.dmx.st = .lenHi ∧ s.dmx.len.toNat < 256 ∧ s.par.respSize < s.dmx.len.toNat + 256 * b.toNat ∧
        ok = false ∧ capped = true ∧ n = 0 ∧
        u = { s with
          rx := rest, asleep := none, waiting := false
          dmx := { s.dmx.accIf s.par.verifyRxChecksum b with
            len := BitVec.ofNat 16 (s.dmx.len.toNat + 256 * b.toNat) } }))) ∨
  (s.deadline < s.now ∧ ok = false ∧ capped = false ∧ n = 0 ∧
    u = { s with asleep := none, waiting := false })

/-- One iteration of the ACK wait of CFG_SEQ's template t in state s ends it with the outcome a, and leaves u
(41_ack_matcher.md R111, R118): the last byte of a template, or the deadline. -/
def CfgAckEnds (s u : State) (t : Template) (a : Bool) : Prop :=
  (∃ rest, s.now ≤ s.deadline ∧ s.ackPos = 7 ∧ s.rx = t.ident :: rest ∧ a = s.ackBranch ∧
    u = { s with rx := rest, ackPos := 0, asleep := none, waiting := false }) ∨
  (s.deadline < s.now ∧ a = false ∧ u = { s with asleep := none, waiting := false })

/-- An infinite run of the machine: no step of it stops. -/
def InfiniteRun (r : Nat → State) : Prop := ∀ n, step (r n) = .next (r (n + 1))

/-- The fairness of the clock over a run (10_state.md R39): `Now()` eventually exceeds every bound. -/
def FairRun (r : Nat → State) : Prop := ∀ bound, ∃ n, bound < (r n).now

end Sys2Proof.Machine
end

