-- ==== Sys2Proof/Certificates/Slice0/Obligations.lean ====
section
/-! DEFINITION. The statements for the provers. Each docstring says which rule of spec/ it formalises. -/

open Sys2Proof Sys2Proof.Machine

/-! ## Encoding -/

/-- Decoding the encoding of a well-formed instruction gives it back, for every instance, instruction and
operand; and every opcode byte decodes to a well-formed command whose encoding is that byte
(30_encoding.md R70, R74, R75, R77, R79). -/
def Obligations.DecodeEncodeRoundTrip : Prop :=
  (∀ (inst : Instance) (i : Instr), i.wellFormed inst.p = true →
    decode inst.p i.source (encode inst.p i) = .ok i) ∧
  (∀ (p : Params) (b : Byte), (decodeOp b).wellFormed p = true ∧ (decodeOp b).source = .command ∧
    encode p (decodeOp b) = [b])

/-- A few words written out from the spec's encodings (R74, R77, R97, R115, 95_test_vectors.md) decode to
the instructions they stand for. -/
def Obligations.WrittenWordsDecode : Prop :=
  decode Config.chipParams .command [0x03] = .ok .sendCmd ∧
  decode Config.chipParams .command [0x0C] = .ok .cfgSeq ∧
  decode Config.chipParams .command [0x0D] = .ok (.reserved 0x0D) ∧
  decode Config.chipParams .received [0xB5, 0x62, 0x05, 0x01, 0x02, 0x00, 0x06, 0x11, 0x1F, 0x48] =
    .ok (.ack 0x06 0x11 [0x1F, 0x48]) ∧
  decode Config.chipParams .received [0xB5, 0x62, 0x05, 0x00, 0x02, 0x00, 0x06, 0x11, 0x1E, 0x43] =
    .ok (.nak 0x06 0x11 [0x1E, 0x43]) ∧
  decode Config.chipParams .received [0xB5, 0x62, 0x01, 0x02, 0x04, 0x00, 0x11, 0x22, 0x33, 0x44, 0xB1, 0x82] =
    .ok (.frame 0x01 0x02 [0x11, 0x22, 0x33, 0x44] 0xB1 0x82) ∧
  decode Config.chipParams .sent [0xB5, 0x62, 0x01, 0x07, 0x00, 0x00, 0x08, 0x19] = .ok (.pollRequest 0x01 0x07)

/-! ## The wire format -/

/-- R99: the closed form of the checksum pair, and its two consequences. -/
def Obligations.FletcherClosedForm : Prop :=
  (∀ x : List Byte,
    (fletcher8 x).1.toNat = (x.map BitVec.toNat).sum % 256 ∧
    (fletcher8 x).2.toNat = ((List.range x.length).map (fun k => (x.length - k) * (x.getD k 0).toNat)).sum % 256) ∧
  (∀ x : List Byte, (fletcher8 (x ++ [0])).1 = (fletcher8 x).1 ∧
    (fletcher8 (x ++ [0])).2 = (fletcher8 x).2 + (fletcher8 x).1) ∧
  (∀ x y : List Byte, x.Perm y → (fletcher8 x).1 = (fletcher8 y).1)

/-- R72, R91: where every byte of a built frame stands, and that the two trailing bytes are the checksum of
the bytes at offsets 2 through 5+L. R100: the poll request is the frame without payload, its checksum is that of
its four header bytes, and both in closed form. -/
def Obligations.FrameLayout : Prop :=
  (∀ (c i : Byte) (p : List Byte), p.length ≤ 65535 →
    (frameBytes c i p).length = p.length + 8 ∧
    (frameBytes c i p).take 4 = [0xB5, 0x62, c, i] ∧
    ((frameBytes c i p).getD 4 0).toNat + 256 * ((frameBytes c i p).getD 5 0).toNat = p.length ∧
    ((frameBytes c i p).drop 6).take p.length = p ∧
    (frameBytes c i p).drop (6 + p.length) =
      [(fletcher8 (((frameBytes c i p).drop 2).take (4 + p.length))).1,
       (fletcher8 (((frameBytes c i p).drop 2).take (4 + p.length))).2]) ∧
  (∀ c i : Byte, pollFrame c i = frameBytes c i [] ∧ fletcher8 [c, i, 0, 0] = (c + i, 4 * c + 3 * i) ∧
    pollFrame c i = [0xB5, 0x62, c, i, 0x00, 0x00, c + i, 4 * c + 3 * i])

/-! ## Reset -/

/-- R41, as R230 applies it, and R36 for the masks: a reset move sets every piece of the block's state to the table's value
and keeps the instance, the streams and the clock. -/
def Obligations.ResetMoveSetsTheTable : Prop :=
  ∀ (s : State) (rest : List Move), s.schedule = Move.reset :: rest → ∃ t, step s = .next t ∧
    (t.op = 0 ∧ t.argClass = 0 ∧ t.argId = 0 ∧ t.argPlen = 0 ∧ t.argCap = 0 ∧ t.argTimeout = 0 ∧ t.argTmpl = 0) ∧
    t.status = { busy := false, done := false, ok := false, err := .none, acked := false } ∧
    (t.resultLen = 0 ∧ t.frameLen = 0 ∧
      t.acqStatus = { success := false, p0Ok := false, p1Ok := false, p2Ok := false } ∧
      t.cfgStatus = { cfgOk := false, attempted := 0, stepOk := 0 }) ∧
    (t.fixReg.year = 0 ∧ t.fixReg.month = 0 ∧ t.fixReg.day = 0 ∧ t.fixReg.hour = 0 ∧ t.fixReg.minute = 0 ∧
      t.fixReg.second = 0 ∧ t.fixReg.lat = 0 ∧ t.fixReg.lon = 0 ∧ t.fixReg.alt = 0 ∧ t.fixReg.numSv = 0 ∧
      t.fixReg.fixType = 0) ∧
    t.variant = s.inst.p.variant ∧
    (t.curOp = 0 ∧ t.phase = 0 ∧ t.kIdx = 0 ∧ t.accOk = false ∧ t.accCap = false ∧ t.t0 = 0 ∧ t.deadline = 0) ∧
    (t.attMask = 0 ∧ t.okMask = 0) ∧
    (t.ackPos = 0 ∧ t.ackBranch = false) ∧
    (t.dmx.st = .sync1 ∧ t.dmx.len = 0 ∧ t.dmx.cnt = 0 ∧ t.dmx.ckA = 0 ∧ t.dmx.ckB = 0) ∧
    (∀ b i, Memory.read (t.buffer b) i = 0) ∧
    t.inst = s.inst ∧ t.rx = s.rx ∧ t.tx = s.tx ∧ t.now = s.now

/-- The reset state satisfies every invariant the steps are stated to keep. -/
def Obligations.ResetStateIsLegal : Prop :=
  BuffersCanonical State.reset ∧ StatusLegal State.reset ∧ IndexesInside State.reset ∧ FrameHeld State.reset ∧
    CfgStatusLegal State.reset ∧ CfgTargetApplicable State.reset ∧ State.reset.variant = State.reset.par.variant

/-- R233: what a host read after a reset returns, for every register that is not reserved and every buffer
byte it may read; and FIX_ALT = 0 is a value no decode produces. -/
def Obligations.ReadsAfterReset : Prop :=
  (∀ (s : State) (index : BitVec 5) (rest : List Access), s.program = .readReg index :: rest →
    programAdmitted s.par s.par.variant 0 0 s.program = true →
    ¬ (index ∈ [(0x07 : BitVec 5), 0x0E, 0x0F, 0x1B, 0x1C, 0x1D, 0x1E, 0x1F]) →
    hostMove s.assertReset = .next { s.assertReset with
      program := rest
      reads := s.reads ++ [.reg index (if index = 0x0D ∧ s.par.variant = .gen2 then 1 else 0)] }) ∧
  (∀ (s : State) (b : Buffer) (i : Nat) (rest : List Access), s.program = .readBuf b i :: rest →
    programAdmitted s.par s.par.variant 0 0 s.program = true → i < bufferSize s.par b →
    hostMove s.assertReset = .next { s.assertReset with program := rest, reads := s.reads ++ [.buf b i 0] }) ∧
  (∀ r : Word, altNorm r ≠ 0)

/-! ## The host port -/

/-- R30: issue. The one update a host write of OP makes while idle, and that the engine then runs the rule of
the operation whose opcode is the low byte written (R20, R28). -/
def Obligations.IssueStartsTheOperation : Prop :=
  ∀ (s : State) (w : Word) (rest : List Access), s.status.busy = false →
    s.program = .writeReg 0x00 w :: rest → programAdmitted s.par s.variant s.argClass s.argId s.program = true →
    ∃ t, hostMove s = .next t ∧
      t = { s with program := rest, op := w.setWidth 8, curOp := w.setWidth 8, phase := 0, waiting := false
                   status := { busy := true, done := false, ok := false, err := .none, acked := false } } ∧
      engineMove t = exec (decodeOp (w.setWidth 8)) t

/-- R31: while BUSY = 1 a read of STATUS is admitted, by itself or as a poll of WAIT; every other host access
is refused. -/
def Obligations.BusyAdmitsOnlyStatusReads : Prop :=
  ∀ (s : State) (a : Access) (rest : List Access), s.status.busy = true → s.program = a :: rest →
    programAdmitted s.par s.variant s.argClass s.argId s.program = true →
    (a = .readReg 0x08 → hostMove s =
      .next { s with program := rest, reads := s.reads ++ [.reg 0x08 s.status.word] }) ∧
    (a = .wait → ∃ t, hostMove s = .next t ∧ t.reads = s.reads ++ [.reg 0x08 s.status.word]) ∧
    (a ≠ .readReg 0x08 → a ≠ .wait → hostMove s = .refused .busyAccess)

/-- R37: a host access to a reserved index is refused, and the reserved bits of STATUS and CFG_STATUS read 0.
R20: an idle host's access to any other index is not refused; that a WRITE of a read-only register is among
those is the model's own reading (log 9, DEDUCED). -/
def Obligations.ReservedIndexesAndBits : Prop :=
  (∀ (s : State) (index : BitVec 5) (rest : List Access),
    index ∈ [(0x07 : BitVec 5), 0x0E, 0x0F, 0x1B, 0x1C, 0x1D, 0x1E, 0x1F] →
    (s.program = .readReg index :: rest ∨ ∃ w, s.program = .writeReg index w :: rest) →
    ∃ r, hostMove s = .refused r) ∧
  (∀ (s : State) (index : BitVec 5) (rest : List Access), s.status.busy = false →
    programAdmitted s.par s.variant s.argClass s.argId s.program = true →
    (s.program = .readReg index :: rest ∨ ∃ w, s.program = .writeReg index w :: rest) →
    (index ∈ [(0x07 : BitVec 5), 0x0E, 0x0F, 0x1B, 0x1C, 0x1D, 0x1E, 0x1F] →
      hostMove s = .refused (.reservedIndex index)) ∧
    (¬ (index ∈ [(0x07 : BitVec 5), 0x0E, 0x0F, 0x1B, 0x1C, 0x1D, 0x1E, 0x1F]) → ∃ t, hostMove s = .next t)) ∧
  (∀ (st : Status) (j : Nat), (j = 3 ∨ j = 6 ∨ j = 7 ∨ 9 ≤ j) → st.word.getLsbD j = false) ∧
  (∀ (c : CfgStatus) (j : Nat), ((1 ≤ j ∧ j ≤ 7) ∨ 24 ≤ j) → c.word.getLsbD j = false)

/-- R20 to R29: what an idle host's read of each register returns, with the bit positions of STATUS, ACQ_STATUS and
CFG_STATUS (R22, R26, R27); that a write of an argument register stores the low bits in it and changes no other
register (R21), and a read after it returns them; and that a write of a read-only register changes nothing, which
is the model's own reading (log 9, DEDUCED, unsafe). A write of OP is IssueStartsTheOperation's. -/
def Obligations.HostRegisterReadsAndWrites : Prop :=
  ∀ (s : State) (rest : List Access), s.status.busy = false →
    programAdmitted s.par s.variant s.argClass s.argId s.program = true →
    (∀ (index : BitVec 5) (value : Nat), s.program = .readReg index :: rest →
      (index, value) ∈ ([(0x00, s.op.toNat), (0x01, s.argClass.toNat), (0x02, s.argId.toNat),
        (0x03, s.argPlen.toNat), (0x04, s.argCap.toNat), (0x05, s.argTimeout.toNat), (0x06, s.argTmpl.toNat),
        (0x08, s.status.busy.toNat + 2 * s.status.done.toNat + 4 * s.status.ok.toNat + 16 * s.status.err.code +
          256 * s.status.acked.toNat),
        (0x09, s.resultLen.toNat), (0x0A, s.frameLen.toNat),
        (0x0B, s.acqStatus.success.toNat + 2 * s.acqStatus.p0Ok.toNat + 4 * s.acqStatus.p1Ok.toNat +
          8 * s.acqStatus.p2Ok.toNat),
        (0x0C, s.cfgStatus.cfgOk.toNat + 256 * s.cfgStatus.attempted.toNat + 65536 * s.cfgStatus.stepOk.toNat),
        (0x0D, match s.variant with | .gen1 => 0 | .gen2 => 1),
        (0x10, s.fixReg.year.toNat), (0x11, s.fixReg.month.toNat), (0x12, s.fixReg.day.toNat),
        (0x13, s.fixReg.hour.toNat), (0x14, s.fixReg.minute.toNat), (0x15, s.fixReg.second.toNat),
        (0x16, s.fixReg.lat.toNat), (0x17, s.fixReg.lon.toNat), (0x18, s.fixReg.alt.toNat),
        (0x19, s.fixReg.numSv.toNat), (0x1A, s.fixReg.fixType.toNat)] : List (BitVec 5 × Nat)) →
      hostMove s = .next { s with program := rest, reads := s.reads ++ [.reg index (BitVec.ofNat 32 value)] }) ∧
    (∀ w, s.program = .writeReg 0x01 w :: rest →
      hostMove s = .next { s with program := rest, argClass := w.setWidth 8 }) ∧
    (∀ w, s.program = .writeReg 0x02 w :: rest →
      hostMove s = .next { s with program := rest, argId := w.setWidth 8 }) ∧
    (∀ w, s.program = .writeReg 0x03 w :: rest →
      hostMove s = .next { s with program := rest, argPlen := w.setWidth 16 }) ∧
    (∀ w, s.program = .writeReg 0x04 w :: rest →
      hostMove s = .next { s with program := rest, argCap := w.setWidth 16 }) ∧
    (∀ w, s.program = .writeReg 0x05 w :: rest →
      hostMove s = .next { s with program := rest, argTimeout := w }) ∧
    (∀ w, s.program = .writeReg 0x06 w :: rest →
      hostMove s = .next { s with program := rest, argTmpl := w.setWidth 8 }) ∧
    (∀ (index : BitVec 5) (w : Word) (later : List Access),
      index ∈ [(0x01 : BitVec 5), 0x02, 0x03, 0x04, 0x05, 0x06] →
      rest = .readReg index :: later → s.program = .writeReg index w :: rest →
      ∃ t, hostMove s = .next t ∧ hostMove t = .next { t with
        program := later
        reads := s.reads ++ [.reg index
          (if index = 0x05 then w else if index = 0x03 ∨ index = 0x04 then w &&& 0xFFFF#32 else w &&& 0xFF#32)] }) ∧
    (∀ (index : BitVec 5) (w : Word), s.program = .writeReg index w :: rest →
      index ∈ [(0x08 : BitVec 5), 0x09, 0x0A, 0x0B, 0x0C, 0x0D, 0x10, 0x11, 0x12, 0x13, 0x14, 0x15, 0x16, 0x17, 0x18,
        0x19, 0x1A] →
      hostMove s = .next { s with program := rest })

/-- R55: the host's buffer accesses: idle and inside the buffer a read returns the byte and a write of TXP or
RESP stores it there and nowhere else; a write of FRAME, an index at or past the size, and any access
while BUSY = 1 are refused. -/
def Obligations.HostBufferAccess : Prop :=
  ∀ (s : State) (rest : List Access), BuffersCanonical s →
    programAdmitted s.par s.variant s.argClass s.argId s.program = true →
    (∀ b i, s.program = .readBuf b i :: rest → s.status.busy = false → i < bufferSize s.par b →
      hostMove s = .next { s with program := rest, reads := s.reads ++ [.buf b i (Memory.read (s.buffer b) i)] }) ∧
    (∀ i v, s.program = .writeBuf .txp i v :: rest → s.status.busy = false → i < s.par.txpSize →
      ∃ m, hostMove s = .next { s with program := rest, txp := m } ∧
        ∀ j, Memory.read m j = if j = i then v else Memory.read s.txp j) ∧
    (∀ i v, s.program = .writeBuf .resp i v :: rest → s.status.busy = false → i < s.par.respSize →
      ∃ m, hostMove s = .next { s with program := rest, resp := m } ∧
        ∀ j, Memory.read m j = if j = i then v else Memory.read s.resp j) ∧
    (∀ i v, s.program = .writeBuf .frame i v :: rest → s.status.busy = false →
      hostMove s = .refused (.bufferAccess .frame i)) ∧
    (∀ b i v, s.program = .writeBuf b i v :: rest → s.status.busy = false → bufferSize s.par b ≤ i →
      hostMove s = .refused (.bufferAccess b i)) ∧
    (∀ b i, s.program = .readBuf b i :: rest → s.status.busy = false → bufferSize s.par b ≤ i →
      hostMove s = .refused (.bufferAccess b i)) ∧
    (∀ b i v, (s.program = .readBuf b i :: rest ∨ s.program = .writeBuf b i v :: rest) → s.status.busy = true →
      hostMove s = .refused .busyAccess)

/-- R206, second bullet, and the model's reading of "before running it" (log 10): the host's move is refused with
unsupportedVariant if and only if VARIANT is GEN1 and its program has, whatever stands before it, a write of OP
that issues ENCODE, TRANSMIT or SEND_CMD while ARG_CLASS and ARG_ID then hold a Gen2-only template's (class, id),
from an earlier write or from the start; so the ENCODE and SEND of R86 for such a (class, id) are refused before
their first access. Under GEN2 every program passes the check; and a program that passed stays admitted as its
accesses run. -/
def Obligations.UnsupportedVariantIsRefusedBeforeTheRun : Prop :=
  (∀ s : State, hostMove s = .refused .unsupportedVariant ↔
    s.variant = .gen1 ∧ ∃ (before rest : List Access) (w : Word) (t : Template),
      s.program = before ++ .writeReg 0x00 w :: rest ∧
      (w.setWidth 8 = 0x01#8 ∨ w.setWidth 8 = 0x02#8 ∨ w.setWidth 8 = 0x03#8) ∧
      t ∈ s.par.templates ∧ t.gen2Only = true ∧
      argByteAfter 0x01 s.argClass before = t.cls ∧ argByteAfter 0x02 s.argId before = t.ident) ∧
  (∀ (s : State) (t : Template) (n : Half) (ms : Word) (before rest : List Access), s.variant = .gen1 →
    t ∈ s.par.templates → t.gen2Only = true →
    (s.program = before ++ encodeProgram t.cls t.ident n ++ rest ∨
      s.program = before ++ sendProgram t.cls t.ident n ms ++ rest) →
    hostMove s = .refused .unsupportedVariant) ∧
  (∀ (p : Params) (c i : Byte) (program : List Access), programAdmitted p .gen2 c i program = true) ∧
  (∀ s t : State, hostMove s = .next t → programAdmitted t.par t.variant t.argClass t.argId t.program = true)

/-! ## A step -/

/-- What a step runs: the operation in CUR_OP when the engine moves while BUSY = 1 (R30, R32); the wire unit the
receiver's bytes are (R38, R70). Two clauses are the model's own choice: that with nothing scheduled the engine
moves, after the environment's free draw (log 4, DESIGN CHOICE), and that an engine move while idle changes
nothing but the schedule (log 23, DESIGN CHOICE). -/
def Obligations.StepRunsDecodedInstruction : Prop :=
  ∀ (s : State) (rest : List Move),
    (∀ i, s.schedule = .engine :: rest → s.status.busy = true → decode s.par .command [s.curOp] = .ok i →
      step s = exec i { s with schedule := rest }) ∧
    (∀ i, s.schedule = [] → s.status.busy = true → decode s.par .command [s.curOp] = .ok i →
      step s = exec i s.freeDraw) ∧
    (∀ bs i, s.schedule = .receiver bs :: rest → decode s.par .received bs = .ok i →
      step s = exec i { s with schedule := rest }) ∧
    (s.schedule = .engine :: rest → s.status.busy = false → step s = .next { s with schedule := rest })

/-- R75, R140, R170, R171: the first engine step of POLL, and of each poll of ACQUIRE_FIX, is the poll request
of the message whose turn it is. -/
def Obligations.PollsBeginWithThePollRequest : Prop :=
  (∀ s : State, s.phase = 0 → s.argCap.toNat ≤ s.par.respSize →
    exec .poll s = exec (.pollRequest s.argClass s.argId) s) ∧
  (∀ s : State, s.variant = .gen2 → s.phase = 0 →
    exec .acquireFix s = exec (.pollRequest s.par.pvtClass s.par.pvtId) { s with accOk := true, accCap := false }) ∧
  (∀ s : State, s.variant = .gen1 → s.phase = 0 →
    exec .acquireFix s = exec (.pollRequest s.par.posClass s.par.posId) { s with accOk := true, accCap := false }) ∧
  (∀ s : State, s.variant = .gen1 → s.phase = 3 →
    exec .acquireFix s = exec (.pollRequest s.par.statClass s.par.statId) s) ∧
  (∀ s : State, s.variant = .gen1 → s.phase = 6 →
    exec .acquireFix s = exec (.pollRequest s.par.timeClass s.par.timeId) s)

/-! ## ENCODE, TRANSMIT, SEND_CMD, ACK_WAIT -/

/-- R93: ENCODE completes with the frame of (ARG_CLASS, ARG_ID, TXP[0 .. ARG_PLEN-1]) in FRAME, every other
byte of FRAME and every other register as before; or, with ARG_PLEN past TXP_SIZE, writes STATUS alone. -/
def Obligations.EncodeBuildsTheFrame : Prop :=
  ∀ s : State, s.frame.wf = true →
    (s.argPlen.toNat ≤ s.par.txpSize → ∃ m, exec .encode s =
        .next { s with frame := m, frameLen := BitVec.ofNat 32 (s.argPlen.toNat + 8), waiting := false
                       status := finished true .none s.status.acked } ∧
      m.wf = true ∧
      ∀ j, Memory.read m j =
        if j < s.argPlen.toNat + 8 then
          (frameBytes s.argClass s.argId (Memory.readRange s.txp 0 s.argPlen.toNat)).getD j 0
        else Memory.read s.frame j) ∧
    (s.par.txpSize < s.argPlen.toNat → exec .encode s =
        .next { s with waiting := false, status := finished false .illegal s.status.acked })

/-- R94: ENCODE is idempotent, and has no effect outside FRAME, FRAME_LEN and STATUS (and the model's own
flag of a wait in progress). -/
def Obligations.EncodeIsIdempotent : Prop :=
  ∀ s t : State, s.frame.wf = true → exec .encode s = .next t →
    exec .encode t = .next t ∧
    t = { s with frame := t.frame, frameLen := t.frameLen, status := t.status, waiting := false }

/-- R95: TRANSMIT completes with exactly FRAME[0 .. FRAME_LEN-1] as one write on the transmit stream and
nothing else changed but STATUS; with FRAME_LEN = 0 it writes STATUS alone. -/
def Obligations.TransmitSendsTheFrame : Prop :=
  ∀ s : State,
    (s.frameLen ≠ 0 → s.frameLen.toNat ≤ s.par.txpSize + 8 → ∃ w, exec .transmit s =
        .next { s with tx := s.tx ++ [w], waiting := false, status := finished true .none s.status.acked } ∧
      w.length = s.frameLen.toNat ∧ ∀ j, j < s.frameLen.toNat → w.getD j 0 = Memory.read s.frame j) ∧
    (s.frameLen = 0 → exec .transmit s =
        .next { s with waiting := false, status := finished false .illegal s.status.acked })

/-- R97, R62: SEND_CMD encodes in PHASE 0, hands the frame to the transport in PHASE 1, and only then begins
its ACK wait, whose deadline counts from then; with ARG_PLEN past TXP_SIZE it writes STATUS alone. -/
def Obligations.SendCmdEncodesThenTransmitsThenWaits : Prop :=
  ∀ s : State, s.frame.wf = true →
    (s.phase = 0 → s.argPlen.toNat ≤ s.par.txpSize → ∃ m, exec .sendCmd s =
        .next { s with frame := m, frameLen := BitVec.ofNat 32 (s.argPlen.toNat + 8), phase := 1 } ∧
      ∀ j, Memory.read m j =
        if j < s.argPlen.toNat + 8 then
          (frameBytes s.argClass s.argId (Memory.readRange s.txp 0 s.argPlen.toNat)).getD j 0
        else Memory.read s.frame j) ∧
    (s.phase = 0 → s.par.txpSize < s.argPlen.toNat → exec .sendCmd s =
        .next { s with waiting := false, status := finished false .illegal s.status.acked }) ∧
    (s.phase = 1 → s.frameLen.toNat ≤ s.par.txpSize + 8 → exec .sendCmd s =
        .next { s with tx := s.tx ++ [Memory.readRange s.frame 0 s.frameLen.toNat], phase := 2 }) ∧
    (s.phase = 2 → s.waiting = false → exec .sendCmd s =
        .next { s with ackPos := 0, ackBranch := false, t0 := s.now, deadline := s.now + s.argTimeout.toNat
                       waiting := true })

/-- R97, R111, R115: the byte that completes the template of the awaited (class, id) completes ACK_WAIT and
SEND_CMD, with the branch recorded at index 3 as the result; the byte is consumed and nothing after it. -/
def Obligations.AckCompletesAckWaitAndSendCmd : Prop :=
  ∀ (s : State) (rest : List Byte), WaitOpen s → s.ackPos = 7 → s.rx = s.argId :: rest →
    (exec .ackWait s = .next { s with
        rx := rest, ackPos := 0, asleep := none, waiting := false
        status := finishedOkOrFail s.ackBranch s.ackBranch }) ∧
    (s.phase = 2 → exec .sendCmd s = .next { s with
        rx := rest, ackPos := 0, asleep := none, waiting := false
        status := finishedOkOrFail s.ackBranch s.ackBranch })

/-- R118, R202: past the deadline an ACK wait fails with ACKED = 0 without consuming a byte; a NAK leaves the
same STATUS (R117). R112, R119: within the deadline an iteration sleeps if and only if no byte is available,
keeping the match state; otherwise it consumes exactly one byte. R97: in PHASE 2 SEND_CMD does what ACK_WAIT
does. -/
def Obligations.AckWaitIteration : Prop :=
  ∀ s : State, s.waiting = true →
    (s.deadline < s.now →
      exec .ackWait s = .next { s with asleep := none, waiting := false, status := finishedOkOrFail false false } ∧
      (finishedOkOrFail false false).word = 0x012#32) ∧
    (s.now ≤ s.deadline → s.rx = [] → exec .ackWait s = .next { s with
      sleeps := s.sleeps ++ [s.par.pollSleepAckMs], asleep := some s.par.pollSleepAckMs }) ∧
    (∀ b rest, s.now ≤ s.deadline → s.rx = b :: rest → ∃ t, exec .ackWait s = .next t ∧
      t.rx = rest ∧ t.sleeps = s.sleeps ∧ t.asleep = none ∧ t.now = s.now ∧ t.deadline = s.deadline ∧
      t.tx = s.tx) ∧
    (s.phase = 2 → exec .sendCmd s = exec .ackWait s)

/-- R121: a junk prefix without a 0xB5, then the ACK (NAK) template, all available: the wait answers true
(false), having consumed exactly the prefix and the template; and `[0xB5] ++ AckT` is not matched. The schedule has the
engine move alone and the clock stand, and its count of moves rests on the model's own split into steps (log 5). -/
def Obligations.AckWaitMatchesTemplateAfterJunk : Prop :=
  (∀ (s : State) (junk rest : List Byte) (acked : Bool), (∀ b ∈ junk, b ≠ 0xB5) →
    Running s 0x04 → s.waiting = false →
    s.rx = junk ++ templateOf s.par s.argClass s.argId acked ++ rest →
    s.schedule = List.replicate (junk.length + 9) Move.engine →
    ∃ t, Host.Core.run Sys2Proof.core (junk.length + 9) s = .next t ∧ t.rx = rest ∧
      t.status = finishedOkOrFail acked acked ∧ t.now = s.now ∧ t.tx = s.tx) ∧
  (∀ (s : State) (rest : List Byte), Running s 0x04 → s.waiting = false →
    s.rx = 0xB5 :: templateOf s.par s.argClass s.argId true ++ rest →
    s.schedule = List.replicate 10 Move.engine →
    ∃ t, Host.Core.run Sys2Proof.core 10 s = .next t ∧ t.rx = rest ∧ t.status.busy = true)

/-- R114, R116: whenever the matcher answers, the last eight bytes it consumed are the ACK template (answer
true) or the NAK template (answer false) of the awaited (class, id), and nothing after them is consumed. One byte
an engine move is the model's step (log 5). -/
def Obligations.AckWaitAnswersOnlyOnATemplate : Prop :=
  ∀ (s t : State) (n : Nat), Running s 0x04 → WaitOpen s → s.ackPos = 0 → n ≤ s.rx.length →
    s.schedule = List.replicate n Move.engine → Host.Core.run Sys2Proof.core n s = .next t → t.status.busy = false →
    ∃ k, 8 ≤ k ∧ k ≤ n ∧ t.rx = s.rx.drop k ∧
      (s.rx.take k).drop (k - 8) = templateOf s.par s.argClass s.argId t.status.acked

/-! ## RECV_PAYLOAD, POLL -/

/-- R132, R134, R136, R140: the byte that ends the awaited frame in default mode completes RECV_PAYLOAD and
POLL: the last payload byte, stored at RESP[DMX_CNT], or the high length byte of a frame without payload. -/
def Obligations.ReceiveCompletesInDefaultMode : Prop :=
  ∀ (s : State) (b : Byte) (rest : List Byte), WaitOpen s → s.par.verifyRxChecksum = false →
    s.rx = b :: rest → s.resp.wf = true →
    (s.dmx.st = .payload → s.dmx.cnt + 1 = s.dmx.len → s.dmx.cnt.toNat < s.par.respSize →
      ∃ t, exec .recvPayload s = .next t ∧ (s.phase = 2 → exec .poll s = .next t) ∧
        t = { s with
          rx := rest, asleep := none, waiting := false, resp := t.resp, dmx := { s.dmx with cnt := s.dmx.len }
          resultLen := s.dmx.len, status := finished true .none s.status.acked } ∧
        ∀ j, Memory.read t.resp j = if j = s.dmx.cnt.toNat then b else Memory.read s.resp j) ∧
    (s.dmx.st = .lenHi → s.dmx.len = 0 → b = 0 →
      ∃ t, exec .recvPayload s = .next t ∧ (s.phase = 2 → exec .poll s = .next t) ∧
        t = { s with
          rx := rest, asleep := none, waiting := false, dmx := { s.dmx with cnt := 0 }
          resultLen := 0, status := finished true .none s.status.acked })

/-- R138: in verify mode the second checksum byte, if it is the computed one, completes RECV_PAYLOAD and POLL;
if either checksum byte is wrong the frame is discarded, the byte is dropped and the receive hunts on. -/
def Obligations.ReceiveCompletesInVerifyMode : Prop :=
  ∀ (s : State) (b : Byte) (rest : List Byte), WaitOpen s → s.par.verifyRxChecksum = true → s.rx = b :: rest →
    (s.dmx.st = .ckB → b = s.dmx.ckB →
      ∃ t, exec .recvPayload s = .next t ∧ (s.phase = 2 → exec .poll s = .next t) ∧
        t = { s with
          rx := rest, asleep := none, waiting := false, resultLen := s.dmx.len
          status := finished true .none s.status.acked }) ∧
    (s.dmx.st = .ckB → b ≠ s.dmx.ckB →
      exec .recvPayload s = .next { s with rx := rest, asleep := none, dmx := { s.dmx with st := .sync1 } }) ∧
    (s.dmx.st = .ckA → b ≠ s.dmx.ckA →
      exec .recvPayload s = .next { s with rx := rest, asleep := none, dmx := { s.dmx with st := .sync1 } })

/-- R133, R204: the capacity guard at the high length byte: a declared length above the capacity ends the
receive with CAPACITY, RESP untouched and no further byte consumed; a length up to it goes on. -/
def Obligations.CapacityGuard : Prop :=
  ∀ (s : State) (b : Byte) (rest : List Byte), WaitOpen s → s.dmx.st = .lenHi → s.dmx.len.toNat < 256 →
    s.rx = b :: rest →
    (s.argCap.toNat < s.dmx.len.toNat + 256 * b.toNat → ∃ d, exec .recvPayload s = .next { s with
        rx := rest, asleep := none, waiting := false, dmx := d, resultLen := 0
        status := finished false .capacity s.status.acked } ∧
      (s.phase = 2 → exec .poll s = exec .recvPayload s)) ∧
    (s.dmx.len.toNat + 256 * b.toNat ≤ s.argCap.toNat → s.dmx.len.toNat + 256 * b.toNat ≠ 0 →
      ∃ d, exec .recvPayload s = .next { s with rx := rest, asleep := none, dmx := d } ∧
        d.st = .payload ∧ d.cnt = 0 ∧ d.len.toNat = s.dmx.len.toNat + 256 * b.toNat)

/-- R137, R202: past the deadline a receive fails with RESULT_LEN = 0 and leaves RESP and the stream as they
are; R144: within it, without a byte, it sleeps and keeps its state; R78, R136: a capacity above RESP_SIZE
finishes ILLEGAL before anything else. -/
def Obligations.ReceiveWithoutAByte : Prop :=
  ∀ s : State,
    (s.waiting = true → s.deadline < s.now →
      exec .recvPayload s = .next { s with
        asleep := none, waiting := false, resultLen := 0, status := finished false .fail s.status.acked } ∧
      (s.phase = 2 → exec .poll s = exec .recvPayload s)) ∧
    (s.waiting = true → s.now ≤ s.deadline → s.rx = [] →
      exec .recvPayload s = .next { s with
        sleeps := s.sleeps ++ [s.par.pollSleepDmxMs], asleep := some s.par.pollSleepDmxMs } ∧
      (s.phase = 2 → exec .poll s = exec .recvPayload s)) ∧
    (s.waiting = false → s.par.respSize < s.argCap.toNat →
      exec .recvPayload s = .next { s with status := finished false .illegal s.status.acked }) ∧
    (s.phase = 0 → s.par.respSize < s.argCap.toNat →
      exec .poll s = .next { s with waiting := false, status := finished false .illegal s.status.acked })

/-- R135: in SYNC2, CLASS and ID a byte that is not the expected one is dropped and the machine is in SYNC1,
also when that byte is 0xB5; in SYNC1 every byte other than 0xB5 is dropped. In both modes. -/
def Obligations.HeaderMismatchDropsTheByte : Prop :=
  ∀ (verify : Bool) (c i : Byte) (cap : Half) (d : Dmx) (b : Byte),
    ((d.st = .sync1 ∧ b ≠ 0xB5) ∨ (d.st = .sync2 ∧ b ≠ 0x62) ∨ (d.st = .cls ∧ b ≠ c) ∨ (d.st = .ident ∧ b ≠ i)) →
    dmxStep verify c i cap d b = { next := { d with st := .sync1 }, store := none, result := none }

/-- R142: after one unrelated complete frame with no 0xB5 at any index ≥ 3, the target frame's payload is
returned whole: RESULT_LEN = L, RESP[0 .. L-1] = p, the rest of RESP untouched; the two checksum bytes are
left in default mode (R139) and consumed in verify mode (R138). The schedule has the engine move alone and the
clock stand, and its count of moves rests on the model's own split into steps (log 5). -/
def Obligations.DemultiplexerReconstructs : Prop :=
  ∀ (s : State) (c' i' a b : Byte) (p' p rest : List Byte), Running s 0x05 → s.waiting = false →
    s.argCap.toNat ≤ s.par.respSize → s.resp.wf = true →
    (c', i') ≠ (s.argClass, s.argId) → p'.length ≤ 65535 → p.length ≤ s.argCap.toNat →
    (∀ x ∈ (frameWith c' i' p' a b).drop 3, x ≠ 0xB5) →
    s.rx = frameWith c' i' p' a b ++ frameBytes s.argClass s.argId p ++ rest →
    s.schedule = List.replicate (p'.length + p.length + 15 + if s.par.verifyRxChecksum then 2 else 0) Move.engine →
    ∃ t, Host.Core.run Sys2Proof.core (p'.length + p.length + 15 + if s.par.verifyRxChecksum then 2 else 0) s = .next t ∧
      t.status = finished true .none s.status.acked ∧ t.resultLen.toNat = p.length ∧
      (∀ j, Memory.read t.resp j = if j < p.length then p.getD j 0 else Memory.read s.resp j) ∧
      t.rx = (if s.par.verifyRxChecksum then [] else (frameBytes s.argClass s.argId p).drop (6 + p.length)) ++ rest

/-- R138 over a whole frame: with VERIFY_RX_CHECKSUM a frame of the awaited message whose checksum bytes are not
both those of its header and payload, whichever of them is wrong, does not complete the receive: after it the
machine hunts again, and a second byte 0xB5 behind a wrong first one is a first sync byte. The count of engine
moves rests on the model's own split into steps (log 5). -/
def Obligations.VerifyModeDiscardsABadFrame : Prop :=
  ∀ (s : State) (p rest : List Byte) (a b : Byte), Running s 0x05 → s.waiting = false →
    s.par.verifyRxChecksum = true → s.argCap.toNat ≤ s.par.respSize → p.length ≤ s.argCap.toNat →
    (a, b) ≠ fletcher8 (frameHeader s.argClass s.argId p.length ++ p) →
    s.rx = frameWith s.argClass s.argId p a b ++ rest →
    s.schedule = List.replicate (p.length + 9) Move.engine →
    ∃ t, Host.Core.run Sys2Proof.core (p.length + 9) s = .next t ∧ t.status = s.status ∧ t.waiting = true ∧
      t.rx = rest ∧
      t.dmx.st = (if a ≠ (fletcher8 (frameHeader s.argClass s.argId p.length ++ p)).1 ∧ b = 0xB5 then .sync2
        else .sync1)

/-- R243: a 0xB5 left in the stream right before a frame hides its header: after it and the frame's two sync
bytes the demultiplexer is back in SYNC1, with the frame's class byte next. The count of engine moves rests on
the model's own split into steps (log 5). -/
def Obligations.LeftoverSyncByteHidesTheFrame : Prop :=
  ∀ (s : State) (c i : Byte) (p rest : List Byte), Running s 0x05 → s.waiting = false →
    s.argCap.toNat ≤ s.par.respSize → s.rx = 0xB5 :: frameBytes c i p ++ rest →
    s.schedule = List.replicate 4 Move.engine →
    ∃ t, Host.Core.run Sys2Proof.core 4 s = .next t ∧ t.status = s.status ∧ t.dmx.st = .sync1 ∧
      t.rx = (frameBytes c i p).drop 2 ++ rest

/-- R143: what an engine step of a receive can write of RESP: at most the byte at DMX_CNT, below the capacity,
and only in the PAYLOAD state. -/
def Obligations.ReceiveFootprint : Prop :=
  ∀ s t : State, IndexesInside s → s.resp.wf = true → s.status.busy = true → receives s.curOp →
    exec (decodeOp s.curOp) s = .next t →
    ∀ j, Memory.read t.resp j ≠ Memory.read s.resp j →
      j = s.dmx.cnt.toNat ∧ s.dmx.st = .payload ∧ j < capacityOf s

/-! ## The decoders and ACQUIRE_FIX -/

/-- R161, R166: DECODE_PVT completes with all eleven FIX_* registers taken from RESP at the OFF_PVT_* offsets,
little-endian, latitude and longitude as s32 values; nothing else changes but STATUS. -/
def Obligations.DecodePvtReadsTheFields : Prop :=
  ∀ s : State, ∃ f : FixRecord, exec .decodePvt s =
      .next { s with fixReg := f, waiting := false, status := finished true .none s.status.acked } ∧
    f.year.toNat = (Memory.read s.resp s.par.offPvt.year).toNat +
      256 * (Memory.read s.resp (s.par.offPvt.year + 1)).toNat ∧
    f.month = Memory.read s.resp s.par.offPvt.month ∧ f.day = Memory.read s.resp s.par.offPvt.day ∧
    f.hour = Memory.read s.resp s.par.offPvt.hour ∧ f.minute = Memory.read s.resp s.par.offPvt.minute ∧
    f.second = Memory.read s.resp s.par.offPvt.second ∧
    f.fixType = Memory.read s.resp s.par.offPvt.fixType ∧ f.numSv = Memory.read s.resp s.par.offPvt.numSv ∧
    f.lat.toNat = (Memory.read s.resp s.par.offPvt.lat).toNat +
      256 * (Memory.read s.resp (s.par.offPvt.lat + 1)).toNat +
      65536 * (Memory.read s.resp (s.par.offPvt.lat + 2)).toNat +
      16777216 * (Memory.read s.resp (s.par.offPvt.lat + 3)).toNat ∧
    f.lon.toNat = (Memory.read s.resp s.par.offPvt.lon).toNat +
      256 * (Memory.read s.resp (s.par.offPvt.lon + 1)).toNat +
      65536 * (Memory.read s.resp (s.par.offPvt.lon + 2)).toNat +
      16777216 * (Memory.read s.resp (s.par.offPvt.lon + 3)).toNat ∧
    ∃ r : Word, r.toNat = (Memory.read s.resp s.par.offPvt.alt).toNat +
        256 * (Memory.read s.resp (s.par.offPvt.alt + 1)).toNat +
        65536 * (Memory.read s.resp (s.par.offPvt.alt + 2)).toNat +
        16777216 * (Memory.read s.resp (s.par.offPvt.alt + 3)).toNat ∧
      f.alt = altNorm r

/-- R167, R168, R169: DECODE_POS, DECODE_STAT and DECODE_TIME complete with the fields of Gen1 messages A, B
and C from RESP; the other FIX_* registers and everything else but STATUS are unchanged. -/
def Obligations.DecodeGen1ReadsTheFields : Prop :=
  ∀ s : State,
    (∃ lat lon r : Word, exec .decodePos s =
        .next { s with fixReg := { s.fixReg with lat := lat, lon := lon, alt := altNorm r }, waiting := false
                       status := finished true .none s.status.acked } ∧
      lat.toNat = (Memory.read s.resp s.par.offPos.lat).toNat +
        256 * (Memory.read s.resp (s.par.offPos.lat + 1)).toNat +
        65536 * (Memory.read s.resp (s.par.offPos.lat + 2)).toNat +
        16777216 * (Memory.read s.resp (s.par.offPos.lat + 3)).toNat ∧
      lon.toNat = (Memory.read s.resp s.par.offPos.lon).toNat +
        256 * (Memory.read s.resp (s.par.offPos.lon + 1)).toNat +
        65536 * (Memory.read s.resp (s.par.offPos.lon + 2)).toNat +
        16777216 * (Memory.read s.resp (s.par.offPos.lon + 3)).toNat ∧
      r.toNat = (Memory.read s.resp s.par.offPos.alt).toNat +
        256 * (Memory.read s.resp (s.par.offPos.alt + 1)).toNat +
        65536 * (Memory.read s.resp (s.par.offPos.alt + 2)).toNat +
        16777216 * (Memory.read s.resp (s.par.offPos.alt + 3)).toNat) ∧
    (exec .decodeStat s = .next { s with
        fixReg := { s.fixReg with
          fixType := Memory.read s.resp s.par.offStat.fixType, numSv := Memory.read s.resp s.par.offStat.numSv }
        waiting := false, status := finished true .none s.status.acked }) ∧
    (∃ year : Half, exec .decodeTime s = .next { s with
        fixReg := { s.fixReg with
          year := year
          month := Memory.read s.resp s.par.offTime.month, day := Memory.read s.resp s.par.offTime.day
          hour := Memory.read s.resp s.par.offTime.hour, minute := Memory.read s.resp s.par.offTime.minute
          second := Memory.read s.resp s.par.offTime.second }
        waiting := false, status := finished true .none s.status.acked } ∧
      year.toNat = (Memory.read s.resp s.par.offTime.year).toNat +
        256 * (Memory.read s.resp (s.par.offTime.year + 1)).toNat)

/-- R165: the altitude policy by the truncated quotient, and that flooring gives the same for every r; R175: the
laws of AltNorm. Both on the s32 value of the raw altitude. -/
def Obligations.AltNormPolicyAndLaws : Prop :=
  (∀ r : Word,
    (Int.tdiv r.toInt 1000 ≤ 0 → altNorm r = 1) ∧
    (50000 < Int.tdiv r.toInt 1000 → altNorm r = 50000) ∧
    (0 < Int.tdiv r.toInt 1000 → Int.tdiv r.toInt 1000 ≤ 50000 →
      ((altNorm r).toNat : Int) = Int.tdiv r.toInt 1000) ∧
    ((altNorm r).toNat : Int) =
      if r.toInt / 1000 ≤ 0 then 1 else if 50000 < r.toInt / 1000 then 50000 else r.toInt / 1000) ∧
  (∀ r r' : Word, r.toInt ≤ r'.toInt → (altNorm r).toNat ≤ (altNorm r').toNat) ∧
  (∀ r : Word, 1 ≤ (altNorm r).toNat ∧ (altNorm r).toNat ≤ 50000) ∧
  (∀ r : Word, (altNorm r).toNat = 1 ↔ r.toInt < 2000) ∧
  (∀ r : Word, (altNorm r).toNat = 50000 ↔ 50000000 ≤ r.toInt) ∧
  (∀ r : Word, 2000 ≤ r.toInt → r.toInt < 50000000 → ((altNorm r).toNat : Int) = r.toInt / 1000)

/-- R170: the byte that ends the Gen2 fix message (the last payload byte in default mode, the second checksum
byte in verify mode) completes ACQUIRE_FIX: the eleven FIX_* registers are those DECODE_PVT gives on the
RESP that now holds it, ACQ_STATUS is SUCCESS and P0_OK, RESULT_LEN the length. A failed Gen2 acquisition leaves
every FIX_* register as it was, clears ACQ_STATUS and RESULT_LEN, and reports FAIL for a timeout and CAPACITY for
a declared length above RESP_SIZE. That the decode is in the step of that byte is the model's own choice (log 28). -/
def Obligations.AcquireFixGen2 : Prop :=
  ∀ s : State, s.variant = .gen2 → s.phase = 2 → s.waiting = true →
    (∀ b rest, s.now ≤ s.deadline → s.par.verifyRxChecksum = false → s.rx = b :: rest → s.dmx.st = .payload →
      s.dmx.cnt + 1 = s.dmx.len → s.dmx.cnt.toNat < s.par.respSize →
      ∃ d, exec .decodePvt { s with resp := Memory.write s.resp s.dmx.cnt.toNat b } = .next d ∧
        exec .acquireFix s = .next { d with
          rx := rest, asleep := none, dmx := { s.dmx with cnt := s.dmx.len }, resultLen := s.dmx.len
          acqStatus := { success := true, p0Ok := true, p1Ok := false, p2Ok := false } }) ∧
    (∀ rest, s.now ≤ s.deadline → s.par.verifyRxChecksum = true → s.rx = s.dmx.ckB :: rest → s.dmx.st = .ckB →
      ∃ d, exec .decodePvt s = .next d ∧ exec .acquireFix s = .next { d with
        rx := rest, asleep := none, resultLen := s.dmx.len
        acqStatus := { success := true, p0Ok := true, p1Ok := false, p2Ok := false } }) ∧
    (s.deadline < s.now → exec .acquireFix s = .next { s with
        asleep := none, waiting := false, resultLen := 0
        acqStatus := { success := false, p0Ok := false, p1Ok := false, p2Ok := false }
        status := finished false .fail s.status.acked }) ∧
    (∀ b rest, s.now ≤ s.deadline → s.rx = b :: rest → s.dmx.st = .lenHi → s.dmx.len.toNat < 256 →
      s.par.respSize < s.dmx.len.toNat + 256 * b.toNat → ∃ d, exec .acquireFix s = .next { s with
        rx := rest, asleep := none, waiting := false, dmx := d, resultLen := 0
        acqStatus := { success := false, p0Ok := false, p1Ok := false, p2Ok := false }
        status := finished false .capacity s.status.acked })

/-- R171, R174, R209: each poll of a Gen1 ACQUIRE_FIX, however it ends (the last payload byte or the length of an
empty frame in default mode, the second checksum byte in verify mode, a declared length above RESP_SIZE, the
deadline), runs its decode on RESP as it now is, records its outcome in RESULT_LEN, P_j_OK, ACC_OK and ACC_CAP, and
gives the next message its turn; the third one completes the operation, with SUCCESS and OK the AND of the three and
ERR = CAPACITY if any poll exceeded capacity, else FAIL. That the decode is in the step that ends the poll is the
model's own choice (log 28). -/
def Obligations.AcquireFixGen1 : Prop :=
  ∀ (s u : State) (ok capped : Bool) (n : Half), s.variant = .gen1 → s.waiting = true →
    AcquirePollEnds s u ok capped n →
    (s.phase = 2 → ∃ d, exec .decodePos u = .next d ∧ exec .acquireFix s = .next { u with
      resultLen := n, fixReg := d.fixReg, phase := 3, accOk := s.accOk && ok, accCap := s.accCap || capped
      acqStatus := { s.acqStatus with p0Ok := ok } }) ∧
    (s.phase = 5 → ∃ d, exec .decodeStat u = .next d ∧ exec .acquireFix s = .next { u with
      resultLen := n, fixReg := d.fixReg, phase := 6, accOk := s.accOk && ok, accCap := s.accCap || capped
      acqStatus := { s.acqStatus with p1Ok := ok } }) ∧
    (s.phase = 8 → ∃ d, exec .decodeTime u = .next d ∧ exec .acquireFix s = .next { u with
      resultLen := n, fixReg := d.fixReg, accOk := s.accOk && ok, accCap := s.accCap || capped
      acqStatus := { s.acqStatus with success := s.accOk && ok, p2Ok := ok }
      status := finished (s.accOk && ok)
        (if s.accOk && ok then .none else if s.accCap || capped then .capacity else .fail) s.status.acked })

/-! ## CFG_SEQ -/

/-- R192: the law of the choice of the next template: the first at or after k that is not Gen2-only under GEN1;
every one passed over is Gen2-only under GEN1. -/
def Obligations.CfgSeqSkipsOnlyGen2Templates : Prop :=
  ∀ (p : Params) (v : Variant) (k : Nat),
    (∀ j, nextTemplate p v k = some j → k ≤ j ∧ ∃ t, p.templates[j]? = some t ∧
      ¬ (t.gen2Only = true ∧ v = .gen1) ∧
      ∀ m, k ≤ m → m < j → ∃ u, p.templates[m]? = some u ∧ u.gen2Only = true ∧ v = .gen1) ∧
    (nextTemplate p v k = none → ∀ m u, k ≤ m → p.templates[m]? = some u → u.gen2Only = true ∧ v = .gen1)

/-- R206, first bullet (R192, R196): every step keeps a running CFG_SEQ at a template that is not Gen2-only under
GEN1; and what a step of it puts on the transmit stream is the frame of such a template, so a GEN1 receiver is
never sent a Gen2-only template by CFG_SEQ. -/
def Obligations.StepKeepsCfgTargetApplicable : Prop :=
  ∀ s t : State, CfgTargetApplicable s → step s = .next t →
    CfgTargetApplicable t ∧
    (s.status.busy = true → s.curOp = 0x0C → t.tx = s.tx ∨ ∃ u ∈ s.par.templates,
      ¬ (u.gen2Only = true ∧ s.variant = .gen1) ∧ t.tx = s.tx ++ [frameBytes u.cls u.ident u.payload])

/-- R192: the first step of CFG_SEQ sets ACC_OK, clears the masks and builds the frame of the first template to send,
or, with none to send, completes with CFG_OK = 1 and no step attempted (R27). PHASE 3K and 3K+1: the frame of
template K is built from constant storage into FRAME, then handed to the transport; TXP and the argument registers
are untouched. -/
def Obligations.CfgSeqSendsTheTemplate : Prop :=
  ∀ s : State, s.frame.wf = true →
    (∀ k t, s.phase = 0 → nextTemplate s.par s.variant 0 = some k → s.par.templates[k]? = some t →
      ∃ m, exec .cfgSeq s = .next { s with
        accOk := true, attMask := 0, okMask := 0
        frame := m, frameLen := BitVec.ofNat 32 (t.payload.length + 8), kIdx := k, phase := 3 * k + 1 } ∧
      ∀ j, Memory.read m j =
        if j < t.payload.length + 8 then (frameBytes t.cls t.ident t.payload).getD j 0 else Memory.read s.frame j) ∧
    (s.phase = 0 → nextTemplate s.par s.variant 0 = none → exec .cfgSeq s = .next { s with
      accOk := true, attMask := 0, okMask := 0, waiting := false
      cfgStatus := { cfgOk := true, attempted := 0, stepOk := 0 }, status := finishedOkOrFail true s.status.acked }) ∧
    (∀ t, s.phase ≠ 0 → s.phase % 3 = 0 → s.par.templates[s.kIdx]? = some t →
      ∃ m, exec .cfgSeq s = .next { s with
        frame := m, frameLen := BitVec.ofNat 32 (t.payload.length + 8), phase := 3 * s.kIdx + 1 } ∧
      ∀ j, Memory.read m j =
        if j < t.payload.length + 8 then (frameBytes t.cls t.ident t.payload).getD j 0 else Memory.read s.frame j) ∧
    (s.phase % 3 = 1 → s.frameLen.toNat ≤ s.par.txpSize + 8 → exec .cfgSeq s = .next { s with
        tx := s.tx ++ [Memory.readRange s.frame 0 s.frameLen.toNat], phase := s.phase + 1 })

/-- R192, R193: the end of template K's ACK wait, by an ACK, a NAK or the deadline: the outcome goes into the masks
and the AND. With another template to send the sequence goes on to it, whatever the outcome, and the host's STATUS
stays as it was (R15, R57). After the last one CFG_STATUS is written, ACKED is the last outcome, and OK is
CFG_OK. -/
def Obligations.CfgSeqCompletesAndGoesOn : Prop :=
  ∀ (s u : State) (t : Template) (a : Bool), s.waiting = true → s.phase = 3 * s.kIdx + 2 →
    s.par.templates[s.kIdx]? = some t → CfgAckEnds s u t a →
    (nextTemplate s.par s.variant (s.kIdx + 1) = none → exec .cfgSeq s = .next { u with
      accOk := s.accOk && a
      attMask := setMaskBit s.attMask s.kIdx true, okMask := setMaskBit s.okMask s.kIdx a
      cfgStatus := { cfgOk := s.accOk && a, attempted := setMaskBit s.attMask s.kIdx true
                     stepOk := setMaskBit s.okMask s.kIdx a }
      status := finishedOkOrFail (s.accOk && a) a }) ∧
    (∀ k, nextTemplate s.par s.variant (s.kIdx + 1) = some k → exec .cfgSeq s = .next { u with
      accOk := s.accOk && a, kIdx := k, phase := 3 * k
      attMask := setMaskBit s.attMask s.kIdx true, okMask := setMaskBit s.okMask s.kIdx a })

/-- R193: every step keeps CFG_STATUS a record of the last CFG_SEQ: STEP_OK ⊆ ATTEMPTED, CFG_OK = 1 iff they are
equal (or it is as reset left it). -/
def Obligations.StepKeepsCfgStatusLegal : Prop :=
  ∀ s t : State, CfgStatusLegal s → step s = .next t → CfgStatusLegal t

/-- R197: each sub-operation of template K in CFG_SEQ has the effect on FRAME and the two streams of the same
sub-operation of a SEND_CMD whose arguments are the template's. The outcome that SEND_CMD puts into ACKED goes into
the masks and the AND, and into ACKED after the last template; between the steps the host's view is unchanged. -/
def Obligations.CfgSeqStepIsASendCmd : Prop :=
  ∀ (s u s' u' : State) (t : Template), s.par.templates[s.kIdx]? = some t → s.phase ≠ 0 →
    s' = { s with argClass := t.cls, argId := t.ident, argPlen := BitVec.ofNat 16 t.payload.length
                  txp := s'.txp, curOp := 0x03, phase := s.phase % 3 } →
    Memory.readRange s'.txp 0 t.payload.length = t.payload →
    exec .cfgSeq s = .next u → exec .sendCmd s' = .next u' →
    u.frame = u'.frame ∧ u.frameLen = u'.frameLen ∧ u.tx = u'.tx ∧ u.rx = u'.rx ∧ u.sleeps = u'.sleeps ∧
      u.ackPos = u'.ackPos ∧ u.waiting = u'.waiting ∧
      (∀ k, nextTemplate s.par s.variant (s.kIdx + 1) = some k → u.status = s.status) ∧
      (s.waiting = true → u'.waiting = false →
        u.attMask.getLsbD s.kIdx = true ∧ u.okMask.getLsbD s.kIdx = u'.status.acked ∧
        u.accOk = (s.accOk && u'.status.acked) ∧
        (nextTemplate s.par s.variant (s.kIdx + 1) = none → u.status.acked = u'.status.acked))

/-! ## RESERVED and the units of the wire -/

/-- R79, R205: a reserved opcode finishes ILLEGAL and changes nothing else. -/
def Obligations.ReservedFinishesIllegal : Prop :=
  ∀ (s : State) (b : Byte), b = 0x00 ∨ 0x0D ≤ b → decodeOp b = .reserved b ∧
    exec (.reserved b) s = .next { s with waiting := false, status := finished false .illegal s.status.acked }

/-- R38, R70, R74: a FRAME, ACK or NAK that arrives is appended to the receive stream, byte for byte as the
format lays it out, and changes nothing else. -/
def Obligations.ArrivingUnitsJoinTheStream : Prop :=
  ∀ (s : State) (c i a b : Byte) (p tail : List Byte), p.length ≤ 65535 →
    exec (.frame c i p a b) s = .next { s with rx := s.rx ++
      ([0xB5, 0x62, c, i, BitVec.ofNat 8 p.length, BitVec.ofNat 8 (p.length / 256)] ++ p ++ [a, b]) } ∧
    exec (.ack c i tail) s = .next { s with rx := s.rx ++ (templateOf s.par c i true ++ tail) } ∧
    exec (.nak c i tail) s = .next { s with rx := s.rx ++ (templateOf s.par c i false ++ tail) }

/-- R75, R100, R140: the poll request of (c, i): FRAME[0 .. 7] and the write on the transmit stream are the eight
bytes in closed form, FRAME_LEN = 8, and nothing else changes but PHASE. -/
def Obligations.PollRequestIsBuiltAndSent : Prop :=
  ∀ (s : State) (c i : Byte), s.frame.wf = true →
    ∃ m, exec (.pollRequest c i) s = .next { s with
        frame := m, frameLen := 8, phase := s.phase + 2
        tx := s.tx ++ [[0xB5, 0x62, c, i, 0x00, 0x00, c + i, 4 * c + 3 * i]] } ∧
      m.wf = true ∧
      ∀ j, Memory.read m j =
        if j < 8 then ([0xB5, 0x62, c, i, 0x00, 0x00, c + i, 4 * c + 3 * i] : List Byte).getD j 0
        else Memory.read s.frame j

/-! ## The whole machine -/

/-- R54: every step keeps the three buffers in their canonical form and inside their size. -/
def Obligations.StepKeepsBuffersCanonical : Prop :=
  ∀ s t : State, BuffersCanonical s → step s = .next t → BuffersCanonical t

/-- R15, R22, R201: every step keeps STATUS a legal word; so while BUSY = 1 the host reads 0x001, whatever the
operation has done so far. -/
def Obligations.StepKeepsStatusLegal : Prop :=
  (∀ s t : State, StatusLegal s → step s = .next t → StatusLegal t) ∧
  (∀ s : State, StatusLegal s → s.status.busy = true → s.status.word = 0x001)

/-- R12, R132, R191: every step keeps the sequencing state inside the buffers and the template table. -/
def Obligations.StepKeepsIndexesInside : Prop :=
  ∀ s t : State, IndexesInside s → step s = .next t → IndexesInside t

/-- R12, R208: from a state whose indexes are inside, no step stops with a fault. -/
def Obligations.StepNeverFaults : Prop :=
  ∀ (s : State) (f : Fault), IndexesInside s → step s ≠ .fault f

/-- R83, R95: every step keeps a frame the encoder built in FRAME[0 .. FRAME_LEN-1]. -/
def Obligations.StepKeepsFrameHeld : Prop :=
  ∀ s t : State, FrameHeld s → step s = .next t → FrameHeld t

/-- R53, R62, R71: the transmit stream only grows, by at most one write a step, and every write is a whole frame
whose length field and checksum the encoder computed. -/
def Obligations.EveryWriteIsAWellFormedFrame : Prop :=
  ∀ s t : State, FrameHeld s → step s = .next t →
    t.tx = s.tx ∨ ∃ (c i : Byte) (p : List Byte), p.length ≤ s.par.txpSize ∧ t.tx = s.tx ++ [frameBytes c i p]

/-- R19, R39, R53, R61: in one step the clock does not go back, and the receive stream loses at most its oldest
byte and gains bytes only at its end. R39: in every infinite run of the model the clock exceeds every bound (the
model builds the fairness into the free clock, log 4). -/
def Obligations.StreamOrderAndClock : Prop :=
  (∀ s t : State, step s = .next t →
    s.now ≤ t.now ∧ ∃ (arrived : List Byte) (k : Nat), k ≤ 1 ∧ t.rx = (s.rx ++ arrived).drop k) ∧
  (∀ r : Nat → State, InfiniteRun r → FairRun r)

/-- R29, R40: VARIANT reads 0 or 1; no step changes the parameters or the template table; no operation and no host
write changes VARIANT: only a reset samples it, from the strap. -/
def Obligations.VariantAndTemplatesAreConstant : Prop :=
  (∀ s : State, s.regValue 0x0D = some (match s.variant with | .gen1 => 0 | .gen2 => 1)) ∧
  (∀ s t : State, step s = .next t → t.inst = s.inst ∧
    (s.schedule.head? ≠ some Move.reset → t.variant = s.variant) ∧
    (s.schedule.head? = some Move.reset → t.variant = s.par.variant))

/-- R21, R55, R29: no instruction writes an argument register, OP, CUR_OP, TXP, VARIANT or the instance, moves the
clock back or touches the host's program and readings. -/
def Obligations.InstructionsLeaveTheHostsState : Prop :=
  ∀ (i : Instr) (s t : State), exec i s = .next t →
    t.op = s.op ∧ t.curOp = s.curOp ∧ t.argClass = s.argClass ∧ t.argId = s.argId ∧ t.argPlen = s.argPlen ∧
    t.argCap = s.argCap ∧ t.argTimeout = s.argTimeout ∧ t.argTmpl = s.argTmpl ∧ t.txp = s.txp ∧
    t.variant = s.variant ∧ t.inst = s.inst ∧ t.now = s.now ∧ t.program = s.program ∧ t.schedule = s.schedule ∧
    t.reads = s.reads ∧ t.draws = s.draws

/-- R33, the "no" entries of its table, with R54's "who reaches it" for the buffers and the streams: which
instruction can change which result register, buffer or stream. The six waiting operations take at most one byte
off the receive stream and add none; a unit of the wire that arrives only adds bytes at its end (R19, R38). -/
def Obligations.ResultRegistersByInstruction : Prop :=
  ∀ (i : Instr) (s t : State), exec i s = .next t →
    (t.fixReg ≠ s.fixReg → i = .decodePvt ∨ i = .decodePos ∨ i = .decodeStat ∨ i = .decodeTime ∨ i = .acquireFix) ∧
    (t.acqStatus ≠ s.acqStatus → i = .acquireFix) ∧
    (t.cfgStatus ≠ s.cfgStatus → i = .cfgSeq) ∧
    (t.resultLen ≠ s.resultLen → i = .recvPayload ∨ i = .poll ∨ i = .acquireFix) ∧
    (t.status.acked ≠ s.status.acked → i = .sendCmd ∨ i = .ackWait ∨ i = .cfgSeq) ∧
    (t.frame ≠ s.frame ∨ t.frameLen ≠ s.frameLen → i = .encode ∨ i = .sendCmd ∨ i = .poll ∨ i = .acquireFix ∨
      i = .cfgSeq ∨ ∃ c d, i = .pollRequest c d) ∧
    (t.resp ≠ s.resp → i = .recvPayload ∨ i = .poll ∨ i = .acquireFix) ∧
    (t.tx ≠ s.tx → i = .transmit ∨ i = .sendCmd ∨ i = .poll ∨ i = .acquireFix ∨ i = .cfgSeq ∨
      ∃ c d, i = .pollRequest c d) ∧
    (t.rx = s.rx ∨
      ((i = .sendCmd ∨ i = .ackWait ∨ i = .recvPayload ∨ i = .poll ∨ i = .acquireFix ∨ i = .cfgSeq) ∧
        ∃ b, s.rx = b :: t.rx) ∨
      (((∃ c d p a b, i = .frame c d p a b) ∨ (∃ c d tail, i = .ack c d tail) ∨ (∃ c d tail, i = .nak c d tail)) ∧
        ∃ arrived, t.rx = s.rx ++ arrived))

/-- R200, R203, R204, R205: the codes of ERR, and which instruction can finish with which. -/
def Obligations.ErrorCodesByInstruction : Prop :=
  (ErrCode.none.code = 0 ∧ ErrCode.fail.code = 1 ∧ ErrCode.capacity.code = 2 ∧ ErrCode.illegal.code = 3) ∧
  ∀ (i : Instr) (s t : State), exec i s = .next t → s.status.done = false → t.status.done = true →
    (t.status.err = .fail → i = .ackWait ∨ i = .sendCmd ∨ i = .recvPayload ∨ i = .poll ∨ i = .acquireFix ∨
      i = .cfgSeq) ∧
    (t.status.err = .capacity → i = .recvPayload ∨ i = .poll ∨ i = .acquireFix) ∧
    (t.status.err = .illegal → i = .encode ∨ i = .sendCmd ∨ i = .recvPayload ∨ i = .poll ∨ i = .transmit ∨
      ∃ b, i = .reserved b)

/-- R219: once the clock is past the deadline, the next engine step ends the wait, whichever operation waits. -/
def Obligations.DeadlineEndsEveryWait : Prop :=
  ∀ (s : State), s.status.busy = true → s.waiting = true → s.deadline < s.now → IndexesInside s →
    (s.curOp = 0x04 ∨ s.curOp = 0x05 ∨ (s.curOp = 0x03 ∧ s.phase = 2) ∨ (s.curOp = 0x06 ∧ s.phase = 2) ∨
      (s.curOp = 0x0B ∧ s.phase % 3 = 2) ∨ (s.curOp = 0x0C ∧ s.phase % 3 = 2)) →
    ∃ t, engineMove s = .next t ∧ t.waiting = false ∧ t.rx = s.rx ∧
      (s.curOp = 0x03 ∨ s.curOp = 0x04 ∨ s.curOp = 0x05 ∨ s.curOp = 0x06 →
        t.status.done = true ∧ t.status.err = .fail)

/-- R219: under the clock fairness of R39 every operation finishes: in an infinite run in which the clock exceeds
every bound, whatever the host, the receiver and the schedule do, the engine that is busy is idle again later. -/
def Obligations.EveryOperationFinishes : Prop :=
  ∀ r : Nat → State, InfiniteRun r → FairRun r → ∀ n, (r n).status.busy = true →
    ∃ m, n ≤ m ∧ (r m).status.busy = false

/-- R251: under the clock in which each Sleep(s) takes exactly s and nothing else takes time, a wait on an empty
stream fails at T0 + s·(⌊t/s⌋ + 1), after ⌊t/s⌋ + 1 sleeps; that is in (T0 + t, T0 + t + s]. For ACK_WAIT and
RECV_PAYLOAD; the schedule's moves are the model's own split into steps (log 5). -/
def Obligations.EmptyStreamTimesOutAtTheBoundary : Prop :=
  ∀ (s : State) (v : Byte) (z n : Nat), s.status.busy = true → s.waiting = false → s.rx = [] →
    (v = 0x04 ∧ z = s.par.pollSleepAckMs) ∨
      (v = 0x05 ∧ z = s.par.pollSleepDmxMs ∧ s.argCap.toNat ≤ s.par.respSize) →
    s.curOp = v → n = s.argTimeout.toNat / z + 1 →
    s.schedule = .engine :: (List.replicate n [Move.engine, Move.clock z]).flatten ++ [Move.engine] →
    ∃ t, Host.Core.run Sys2Proof.core (2 * n + 2) s = .next t ∧ t.status.busy = false ∧ t.status.done = true ∧
      t.status.err = .fail ∧ t.now = s.now + z * n ∧ t.sleeps = s.sleeps ++ List.replicate n z ∧
      s.now + s.argTimeout.toNat < t.now ∧ t.now ≤ s.now + s.argTimeout.toNat + z
end

