-- ==== Sys2Proof/Laws/Clock.lean ====
section
/-! SUPPORT. The clock of the moves for which the schedule scripts nothing is fair, and every fair clock is
one of its form (spec/10_state.md R39). -/

namespace Sys2Proof.Machine

/-- A clock that still stands for some moves advances when they are over. -/
theorem fairDraw_after_pause (pause rise : Nat → Nat) :
    ∀ (left n k : Nat), clockPlace pause n = (k, left) → 0 < fairDraw pause rise (n + left)
  | 0, n, k, h => by simp [fairDraw, h]
  | left + 1, n, k, h => by
    have h' : clockPlace pause (n + 1) = (k, left) := by simp [clockPlace, h]
    simpa [Nat.add_comm, Nat.add_left_comm] using fairDraw_after_pause pause rise left (n + 1) k h'

/-- The clock advances again, from any move on. -/
theorem clockDraw_fair (n : Nat) : ∃ m, n ≤ m ∧ 0 < clockDraw m :=
  ⟨n + (clockPlace Config.clockPause n).2, by omega, fairDraw_after_pause _ _ _ n _ rfl⟩

/-- Every clock that advances again from any move on is of this form: fairness is all that is built in. -/
theorem fairDraw_complete (f : Nat → Nat) (hf : ∀ n, ∃ m, n ≤ m ∧ 0 < f m) :
    ∃ pause rise, ∀ n, fairDraw pause rise n = f n := by
  choose next hle hpos using fun n => (⟨Nat.find (hf n), Nat.find_spec (hf n), fun m => Nat.find_min (hf n)⟩ :
    ∃ m, (n ≤ m ∧ 0 < f m) ∧ ∀ j, j < m → ¬ (n ≤ j ∧ 0 < f j))
  let rising : Nat → Nat := fun k => Nat.rec (next 0) (fun _ p => next (p + 1)) k
  let pause : Nat → Nat := fun k => match k with | 0 => rising 0 | j + 1 => rising (j + 1) - (rising j + 1)
  have hplace : ∀ n, ∃ k left, clockPlace pause n = (k, left) ∧ n + left = rising k ∧
      ∀ j, n ≤ j → j < rising k → f j = 0 := by
    intro n
    induction n with
    | zero =>
      refine ⟨0, rising 0, rfl, by omega, fun j _ hj => ?_⟩
      have := hpos 0 j hj
      omega
    | succ n ih =>
      obtain ⟨k, left, hp, hsum, hzero⟩ := ih
      cases left with
      | zero =>
        refine ⟨k + 1, pause (k + 1), by simp [clockPlace, hp], ?_, fun j hj hlt => ?_⟩
        · have : rising k + 1 ≤ rising (k + 1) := (hle (rising k + 1)).1
          show n + 1 + (rising (k + 1) - (rising k + 1)) = rising (k + 1)
          omega
        · have := hpos (rising k + 1) j hlt
          omega
      | succ left =>
        exact ⟨k, left, by simp [clockPlace, hp], by omega, fun j hj hlt => hzero j (by omega) hlt⟩
  refine ⟨pause, fun k => f (rising k) - 1, fun n => ?_⟩
  obtain ⟨k, left, hp, hsum, hzero⟩ := hplace n
  cases left with
  | zero =>
    have hk : 0 < f (rising k) := by
      cases k with
      | zero => exact (hle 0).2
      | succ j => exact (hle (rising j + 1)).2
    have hn : f n = f (rising k) := by rw [show n = rising k by omega]
    simp only [fairDraw, hp]
    omega
  | succ left => simp only [fairDraw, hp, hzero n (Nat.le_refl n) (by omega)]

/-- The counter and the clock after n free draws: every draw is one more, and the clock does not go back. -/
theorem freeDraw_iterate (s : State) (n : Nat) :
    (State.freeDraw^[n] s).draws = s.draws + n ∧ (State.freeDraw^[n] s).now ≤ (State.freeDraw^[n + 1] s).now := by
  refine ⟨?_, by rw [Function.iterate_succ_apply']; exact Nat.le_add_right _ _⟩
  induction n with
  | zero => rfl
  | succ n ih => rw [Function.iterate_succ_apply']; simp only [State.freeDraw, ih]; omega

/-- Free draws bring the clock past every bound. -/
theorem freeDraw_unbounded (s : State) : ∀ bound, ∃ n, bound < (State.freeDraw^[n] s).now
  | 0 => by
    obtain ⟨m, hm, hpos⟩ := clockDraw_fair s.draws
    refine ⟨m - s.draws + 1, ?_⟩
    rw [Function.iterate_succ_apply']
    simp only [State.freeDraw, (freeDraw_iterate s _).1, show s.draws + (m - s.draws) = m by omega]
    omega
  | bound + 1 => by
    obtain ⟨n, hn⟩ := freeDraw_unbounded s bound
    obtain ⟨m, hm, hpos⟩ := clockDraw_fair (s.draws + n)
    have hmono := monotone_nat_of_le_succ (fun k => (freeDraw_iterate s k).2)
    have hle : (State.freeDraw^[n] s).now ≤ (State.freeDraw^[m - s.draws] s).now := hmono (by omega)
    refine ⟨m - s.draws + 1, ?_⟩
    rw [Function.iterate_succ_apply']
    simp only [State.freeDraw, (freeDraw_iterate s _).1, show s.draws + (m - s.draws) = m by omega]
    omega

end Sys2Proof.Machine
end

