-- ==== Sys2Proof/Laws/Frame.lean ====
section
/-! SUPPORT. The laws of the wire format's helpers. -/

namespace Sys2Proof.Machine

/-- Splitting 16 bits into bytes and joining them again loses nothing. -/
@[simp] theorem le16_low_high (v : Half) : le16 (lowByte v) (highByte v) = v := by
  apply BitVec.eq_of_toNat_eq
  have := v.isLt
  simp only [le16, lowByte, highByte, BitVec.toNat_ofNat]
  omega

/-- The low byte of two joined bytes. -/
@[simp] theorem lowByte_le16 (a b : Byte) : lowByte (le16 a b) = a := by
  apply BitVec.eq_of_toNat_eq
  have := a.isLt; have := b.isLt
  simp only [le16, lowByte, BitVec.toNat_ofNat]
  omega

/-- The high byte of two joined bytes. -/
@[simp] theorem highByte_le16 (a b : Byte) : highByte (le16 a b) = b := by
  apply BitVec.eq_of_toNat_eq
  have := a.isLt; have := b.isLt
  simp only [le16, highByte, BitVec.toNat_ofNat]
  omega

/-- The value of two joined bytes. -/
theorem le16_toNat (a b : Byte) : (le16 a b).toNat = a.toNat + 256 * b.toNat := by
  have := a.isLt; have := b.isLt
  simp only [le16, BitVec.toNat_ofNat]
  omega

/-- The value of four joined bytes. -/
theorem le32_toNat (a b c d : Byte) :
    (le32 a b c d).toNat = a.toNat + 256 * b.toNat + 65536 * c.toNat + 16777216 * d.toNat := by
  have := a.isLt; have := b.isLt; have := c.isLt; have := d.isLt
  simp only [le32, BitVec.toNat_ofNat]
  omega

@[simp] theorem frameHeader_length (c i : Byte) (n : Nat) : (frameHeader c i n).length = 4 := rfl

/-- A frame is 8 bytes longer than its payload. -/
@[simp] theorem frameWith_length (c i : Byte) (p : List Byte) (a b : Byte) :
    (frameWith c i p a b).length = p.length + 8 := by
  simp [frameWith]; omega

@[simp] theorem frameBytes_length (c i : Byte) (p : List Byte) : (frameBytes c i p).length = p.length + 8 := by
  simp [frameBytes]

@[simp] theorem pollFrame_length (c i : Byte) : (pollFrame c i).length = 8 := by simp [pollFrame]

/-- The accumulators after one more byte. -/
theorem fletcher8_append_one (x : List Byte) (b : Byte) :
    fletcher8 (x ++ [b]) = fletcherStep (fletcher8 x) b := by
  simp [fletcher8]

/-- The NAK template is the ACK template with the marker at index 3 replaced (41_ack_matcher.md R110). -/
theorem nakTemplate_eq_set (p : Params) (c i : Byte) :
    nakTemplate p c i = (ackTemplate p c i).set 3 p.nakMark := rfl

/-- So the two templates agree at every index but 3. -/
theorem nakTemplate_get (p : Params) (c i : Byte) (k : Fin 8) :
    (nakTemplate p c i).get k = if k = 3 then p.nakMark else (ackTemplate p c i).get k := by
  have h := Vector.getElem_set (xs := ackTemplate p c i) (x := p.nakMark) (i := 3) (hi := by decide) k.isLt
  rw [← nakTemplate_eq_set] at h
  rw [Vector.get_eq_getElem, Vector.get_eq_getElem, h]
  exact if_congr ⟨fun e => Fin.ext e.symm, fun e => e ▸ rfl⟩ rfl rfl

end Sys2Proof.Machine
end

