-- ==== Sys2Proof/Laws/Memory.lean ====
section
/-! SUPPORT. The laws of a buffer: read after write, the canonical form, ranges. -/

namespace Sys2Proof.Machine

/-- A larger lower bound is a stronger canonical form. -/
theorem Memory.wfFrom_mono {lo hi : Nat} (h : lo ≤ hi) : ∀ {m : Memory}, Memory.wfFrom hi m → Memory.wfFrom lo m
  | [], _ => rfl
  | (a, v) :: m, hm => by
    simp only [Memory.wfFrom, Bool.and_eq_true, decide_eq_true_eq] at hm ⊢
    exact ⟨⟨by omega, hm.1.2⟩, hm.2⟩

/-- Below the first cell a canonical buffer reads blank. -/
theorem Memory.read_below : ∀ {m : Memory} {lo a : Nat}, Memory.wfFrom lo m → a < lo → Memory.read m a = blank
  | [], _, _, _, _ => rfl
  | (b, w) :: m, lo, a, hm, ha => by
    simp only [Memory.wfFrom, Bool.and_eq_true, decide_eq_true_eq] at hm
    rw [Memory.read, if_neg (by omega)]
    exact Memory.read_below hm.2 (by omega)

/-- A write keeps the canonical form, from any bound at or below the index written. -/
theorem Memory.write_wfFrom : ∀ {m : Memory} {lo a : Nat} {v : Byte}, Memory.wfFrom lo m → lo ≤ a →
    Memory.wfFrom lo (Memory.write m a v)
  | [], lo, a, v, _, ha => by
    simp only [Memory.write]
    split
    · rfl
    · simp [Memory.wfFrom, *]
  | (b, w) :: m, lo, a, v, hm, ha => by
    have hm' := hm
    simp only [Memory.wfFrom, Bool.and_eq_true, decide_eq_true_eq] at hm
    simp only [Memory.write]
    split
    · rename_i hab
      split
      · exact hm'
      · rename_i hv
        simp only [Memory.wfFrom, Bool.and_eq_true, decide_eq_true_eq]
        exact ⟨⟨ha, hv⟩, ⟨by omega, hm.1.2⟩, hm.2⟩
    · split
      · rename_i hab
        split
        · exact Memory.wfFrom_mono (by omega) hm.2
        · rename_i hv
          subst hab
          simp only [Memory.wfFrom, Bool.and_eq_true, decide_eq_true_eq]
          exact ⟨⟨ha, hv⟩, hm.2⟩
      · simp only [Memory.wfFrom, Bool.and_eq_true, decide_eq_true_eq]
        exact ⟨hm.1, Memory.write_wfFrom hm.2 (by omega)⟩

/-- Every write of a byte keeps the canonical form. -/
theorem Memory.write_wf {m : Memory} (h : m.wf) (a : Nat) (v : Byte) : (Memory.write m a v).wf :=
  Memory.write_wfFrom h (Nat.zero_le a)

/-- Every write of a range keeps the canonical form. -/
theorem Memory.writeRange_wf : ∀ (vs : List Byte) {m : Memory} (_ : m.wf) (a : Nat), (Memory.writeRange m a vs).wf
  | [], _, h, _ => h
  | v :: vs, _, h, a => Memory.writeRange_wf vs (Memory.write_wf h a v) (a + 1)

/-- Reading after a write, from any bound. -/
theorem Memory.read_write_from : ∀ {m : Memory} {lo a b : Nat} {v : Byte}, Memory.wfFrom lo m → lo ≤ a →
    Memory.read (Memory.write m a v) b = if b = a then v else Memory.read m b
  | [], lo, a, b, v, _, _ => by
    by_cases hv : v = blank <;> by_cases hb : b = a <;> simp [Memory.write, Memory.read, hv, hb]
  | (c, w) :: m, lo, a, b, v, hm, ha => by
    simp only [Memory.wfFrom, Bool.and_eq_true, decide_eq_true_eq] at hm
    have hr := @Memory.read_below m (c + 1)
    have ih := @Memory.read_write_from m (c + 1) a b v hm.2
    simp only [Memory.write]
    split
    · rename_i hac
      split
      · rename_i hv
        by_cases hb : b = a
        · subst hb; subst hv; simp [Memory.read, show b ≠ c by omega, hr hm.2 (show b < c + 1 by omega)]
        · simp [hb]
      · by_cases hb : b = a <;> simp [Memory.read, hb]
    · split
      · rename_i hac
        subst hac
        split
        · rename_i hv
          by_cases hb : b = a
          · subst hb; simp [hv, hr hm.2 (show b < b + 1 by omega)]
          · simp [Memory.read, hb]
        · by_cases hb : b = a <;> simp [Memory.read, hb]
      · by_cases hb : b = c
        · subst hb; simp [Memory.read, show b ≠ a by omega]
        · simp only [Memory.read, if_neg hb]
          exact ih (by omega)

/-- A read after a write to a canonical buffer: the value at the index written, else what was there. -/
theorem Memory.read_write {m : Memory} (h : m.wf) (a b : Nat) (v : Byte) :
    Memory.read (Memory.write m a v) b = if b = a then v else Memory.read m b :=
  Memory.read_write_from h (Nat.zero_le a)

/-- A read after a write of a range: the range's byte inside it, else what was there. -/
theorem Memory.read_writeRange : ∀ (vs : List Byte) {m : Memory} (_ : m.wf) (a b : Nat),
    Memory.read (Memory.writeRange m a vs) b =
      if h : a ≤ b ∧ b < a + vs.length then vs[b - a]'(by omega) else Memory.read m b
  | [], _, _, a, b => by simp [Memory.writeRange]
  | v :: vs, m, h, a, b => by
    rw [Memory.writeRange, Memory.read_writeRange vs (Memory.write_wf h a v) (a + 1) b, Memory.read_write h]
    by_cases hb : b = a
    · subst hb; simp
    · by_cases hin : a + 1 ≤ b ∧ b < a + 1 + vs.length
      · have hin' : a ≤ b ∧ b < a + (v :: vs).length := by simp; omega
        rw [dif_pos hin, dif_pos hin']
        have : b - a = (b - (a + 1)) + 1 := by omega
        simp [this]
      · have hin' : ¬ (a ≤ b ∧ b < a + (v :: vs).length) := by simp; omega
        rw [dif_neg hin, dif_neg hin', if_neg hb]

/-- The length of a range read. -/
@[simp] theorem Memory.readRange_length (m : Memory) (a n : Nat) : (Memory.readRange m a n).length = n := by
  simp [Memory.readRange]

/-- One byte of a range read. -/
@[simp] theorem Memory.readRange_getElem (m : Memory) (a n j : Nat) (h : j < (Memory.readRange m a n).length) :
    (Memory.readRange m a n)[j] = Memory.read m (a + j) := by
  simp [Memory.readRange]

/-- Reading back exactly the range written. -/
theorem Memory.readRange_writeRange {m : Memory} (h : m.wf) (a : Nat) (vs : List Byte) :
    Memory.readRange (Memory.writeRange m a vs) a vs.length = vs := by
  apply List.ext_getElem (by simp)
  intro j h1 h2
  rw [Memory.readRange_getElem, Memory.read_writeRange vs h]
  simp [h2]

/-- A write inside the size keeps every cell inside it. -/
theorem Memory.write_within {n : Nat} : ∀ {m : Memory} {a : Nat} {v : Byte}, Memory.within n m → a < n →
    Memory.within n (Memory.write m a v)
  | [], a, v, _, ha => by simp only [Memory.write]; split <;> simp [Memory.within, ha]
  | (b, w) :: m, a, v, hm, ha => by
    have hm' := hm
    simp only [Memory.within, List.all_cons, Bool.and_eq_true, decide_eq_true_eq] at hm
    have ih : Memory.within n (Memory.write m a v) := Memory.write_within hm.2 ha
    simp only [Memory.write]
    split
    · split
      · exact hm'
      · simp only [Memory.within, List.all_cons, Bool.and_eq_true, decide_eq_true_eq]; exact ⟨ha, hm⟩
    · split
      · split
        · exact hm.2
        · simp only [Memory.within, List.all_cons, Bool.and_eq_true, decide_eq_true_eq]; exact ⟨ha, hm.2⟩
      · simp only [Memory.within, List.all_cons, Bool.and_eq_true, decide_eq_true_eq]; exact ⟨hm.1, ih⟩

/-- A write of a range inside the size keeps every cell inside it. -/
theorem Memory.writeRange_within {n : Nat} : ∀ (vs : List Byte) {m : Memory} {a : Nat}, Memory.within n m →
    a + vs.length ≤ n → Memory.within n (Memory.writeRange m a vs)
  | [], _, _, h, _ => h
  | v :: vs, _, a, h, ha => by
    simp only [List.length_cons] at ha
    exact Memory.writeRange_within vs (Memory.write_within h (by omega)) (by omega)

/-- Two canonical buffers that read the same are the same. -/
theorem Memory.ext_of_read : ∀ {m m' : Memory} {lo : Nat}, Memory.wfFrom lo m → Memory.wfFrom lo m' →
    (∀ a, Memory.read m a = Memory.read m' a) → m = m'
  | [], [], _, _, _, _ => rfl
  | [], (b, w) :: m', lo, _, h', hr => by
    simp only [Memory.wfFrom, Bool.and_eq_true, decide_eq_true_eq] at h'
    have := hr b
    simp [Memory.read] at this
    exact absurd this.symm h'.1.2
  | (b, w) :: m, [], lo, h, _, hr => by
    simp only [Memory.wfFrom, Bool.and_eq_true, decide_eq_true_eq] at h
    have := hr b
    simp [Memory.read] at this
    exact absurd this h.1.2
  | (b, w) :: m, (c, x) :: m', lo, h, h', hr => by
    simp only [Memory.wfFrom, Bool.and_eq_true, decide_eq_true_eq] at h h'
    rcases Nat.lt_trichotomy b c with hlt | heq | hgt
    · have := hr b
      simp [Memory.read, show b ≠ c by omega, Memory.read_below h'.2 (show b < c + 1 by omega)] at this
      exact absurd this h.1.2
    · subst heq
      have hw := hr b
      simp [Memory.read] at hw
      subst hw
      have : m = m' := by
        apply Memory.ext_of_read h.2 h'.2
        intro a
        by_cases ha : a = b
        · subst ha
          rw [Memory.read_below h.2 (by omega), Memory.read_below h'.2 (by omega)]
        · have := hr a
          simpa [Memory.read, ha] using this
      rw [this]
    · have := hr c
      simp [Memory.read, show c ≠ b by omega, Memory.read_below h.2 (show c < b + 1 by omega)] at this
      exact absurd this.symm h'.1.2

end Sys2Proof.Machine
end

