-- ==== Sys2Proof/Laws/PerInstr.lean ====
section
/-! SUPPORT. Statements about every instruction as syntax, one lemma per constructor. -/

namespace Sys2Proof.Laws

/-- How many bytes the spec gives an instruction: one for an opcode (30_encoding.md R77), 8 + L for a unit
of the wire (R71, R74, R75). -/
def EncodeLength.expected : Instr → Nat
  | .frame _ _ payload _ _ => payload.length + 8
  | .ack _ _ tail => tail.length + 8
  | .nak _ _ tail => tail.length + 8
  | .pollRequest _ _ => 8
  | .encode | .transmit | .sendCmd | .ackWait | .recvPayload | .poll | .decodePvt | .decodePos | .decodeStat
  | .decodeTime | .acquireFix | .cfgSeq | .reserved _ => 1

/-- The encoding has the length the spec gives it, under any parameters. -/
def EncodeLength.Statement (i : Instr) : Prop :=
  ∀ p : Params, (Sys2Proof.encode p i).length = EncodeLength.expected i

namespace EncodeLength

theorem encode : Statement .encode := fun _ => rfl
theorem transmit : Statement .transmit := fun _ => rfl
theorem sendCmd : Statement .sendCmd := fun _ => rfl
theorem ackWait : Statement .ackWait := fun _ => rfl
theorem recvPayload : Statement .recvPayload := fun _ => rfl
theorem poll : Statement .poll := fun _ => rfl
theorem decodePvt : Statement .decodePvt := fun _ => rfl
theorem decodePos : Statement .decodePos := fun _ => rfl
theorem decodeStat : Statement .decodeStat := fun _ => rfl
theorem decodeTime : Statement .decodeTime := fun _ => rfl
theorem acquireFix : Statement .acquireFix := fun _ => rfl
theorem cfgSeq : Statement .cfgSeq := fun _ => rfl
theorem reserved (opcode : Byte) : Statement (.reserved opcode) := fun _ => rfl
theorem frame (cls ident : Byte) (payload : List Byte) (ckA ckB : Byte) :
    Statement (.frame cls ident payload ckA ckB) := fun _ => Machine.frameWith_length cls ident payload ckA ckB
theorem ack (cls ident : Byte) (tail : List Byte) : Statement (.ack cls ident tail) := fun _ => by
  simp [Sys2Proof.encode, Machine.ackHeader, expected]
theorem nak (cls ident : Byte) (tail : List Byte) : Statement (.nak cls ident tail) := fun _ => by
  simp [Sys2Proof.encode, Machine.ackHeader, expected]
theorem pollRequest (cls ident : Byte) : Statement (.pollRequest cls ident) :=
  fun _ => Machine.pollFrame_length cls ident

end EncodeLength

end Sys2Proof.Laws
end

