-- ==== Sys2Proof/Laws/State.lean ====
section
/-! SUPPORT. The fields of State after each named update. Each theorem is one conjunction with one equation
per field, true by rfl; simp takes every equation of it as a rewrite rule, so no later proof unfolds a
record update. -/

namespace Sys2Proof.Machine

variable (s : State)

/-- What `rxAppend` leaves alone. -/
@[simp] theorem State.rxAppend_unchanged (bs : List Byte) :
    (s.rxAppend bs).inst = s.inst ∧ (s.rxAppend bs).op = s.op ∧ (s.rxAppend bs).argClass = s.argClass ∧
    (s.rxAppend bs).argId = s.argId ∧ (s.rxAppend bs).argPlen = s.argPlen ∧ (s.rxAppend bs).argCap = s.argCap ∧
    (s.rxAppend bs).argTimeout = s.argTimeout ∧ (s.rxAppend bs).argTmpl = s.argTmpl ∧ (s.rxAppend bs).status = s.status ∧
    (s.rxAppend bs).resultLen = s.resultLen ∧ (s.rxAppend bs).frameLen = s.frameLen ∧ (s.rxAppend bs).acqStatus = s.acqStatus ∧
    (s.rxAppend bs).cfgStatus = s.cfgStatus ∧ (s.rxAppend bs).variant = s.variant ∧ (s.rxAppend bs).fixReg = s.fixReg ∧
    (s.rxAppend bs).curOp = s.curOp ∧ (s.rxAppend bs).phase = s.phase ∧ (s.rxAppend bs).kIdx = s.kIdx ∧
    (s.rxAppend bs).ackPos = s.ackPos ∧ (s.rxAppend bs).ackBranch = s.ackBranch ∧ (s.rxAppend bs).dmx = s.dmx ∧
    (s.rxAppend bs).t0 = s.t0 ∧ (s.rxAppend bs).deadline = s.deadline ∧ (s.rxAppend bs).accOk = s.accOk ∧
    (s.rxAppend bs).accCap = s.accCap ∧ (s.rxAppend bs).attMask = s.attMask ∧ (s.rxAppend bs).okMask = s.okMask ∧
    (s.rxAppend bs).waiting = s.waiting ∧ (s.rxAppend bs).asleep = s.asleep ∧ (s.rxAppend bs).txp = s.txp ∧
    (s.rxAppend bs).frame = s.frame ∧ (s.rxAppend bs).resp = s.resp ∧ (s.rxAppend bs).now = s.now ∧
    (s.rxAppend bs).tx = s.tx ∧ (s.rxAppend bs).sleeps = s.sleeps ∧ (s.rxAppend bs).program = s.program ∧
    (s.rxAppend bs).schedule = s.schedule ∧ (s.rxAppend bs).reads = s.reads ∧ (s.rxAppend bs).draws = s.draws := by
  refine ⟨rfl, rfl, rfl, rfl, rfl, rfl, rfl, rfl, rfl, rfl, rfl, rfl, rfl, rfl, rfl, rfl, rfl, rfl, rfl, rfl, rfl, rfl, rfl, rfl, rfl, rfl, rfl, rfl, rfl, rfl, rfl, rfl, rfl, rfl, rfl, rfl, rfl, rfl, rfl⟩

/-- What `rxAppend` writes. -/
@[simp] theorem State.rxAppend_writes (bs : List Byte) :
    (s.rxAppend bs).rx = s.rx ++ bs :=
  rfl

/-- What `txWrite` leaves alone. -/
@[simp] theorem State.txWrite_unchanged (bs : List Byte) :
    (s.txWrite bs).inst = s.inst ∧ (s.txWrite bs).op = s.op ∧ (s.txWrite bs).argClass = s.argClass ∧
    (s.txWrite bs).argId = s.argId ∧ (s.txWrite bs).argPlen = s.argPlen ∧ (s.txWrite bs).argCap = s.argCap ∧
    (s.txWrite bs).argTimeout = s.argTimeout ∧ (s.txWrite bs).argTmpl = s.argTmpl ∧ (s.txWrite bs).status = s.status ∧
    (s.txWrite bs).resultLen = s.resultLen ∧ (s.txWrite bs).frameLen = s.frameLen ∧ (s.txWrite bs).acqStatus = s.acqStatus ∧
    (s.txWrite bs).cfgStatus = s.cfgStatus ∧ (s.txWrite bs).variant = s.variant ∧ (s.txWrite bs).fixReg = s.fixReg ∧
    (s.txWrite bs).curOp = s.curOp ∧ (s.txWrite bs).phase = s.phase ∧ (s.txWrite bs).kIdx = s.kIdx ∧
    (s.txWrite bs).ackPos = s.ackPos ∧ (s.txWrite bs).ackBranch = s.ackBranch ∧ (s.txWrite bs).dmx = s.dmx ∧
    (s.txWrite bs).t0 = s.t0 ∧ (s.txWrite bs).deadline = s.deadline ∧ (s.txWrite bs).accOk = s.accOk ∧
    (s.txWrite bs).accCap = s.accCap ∧ (s.txWrite bs).attMask = s.attMask ∧ (s.txWrite bs).okMask = s.okMask ∧
    (s.txWrite bs).waiting = s.waiting ∧ (s.txWrite bs).asleep = s.asleep ∧ (s.txWrite bs).txp = s.txp ∧
    (s.txWrite bs).frame = s.frame ∧ (s.txWrite bs).resp = s.resp ∧ (s.txWrite bs).now = s.now ∧
    (s.txWrite bs).rx = s.rx ∧ (s.txWrite bs).sleeps = s.sleeps ∧ (s.txWrite bs).program = s.program ∧
    (s.txWrite bs).schedule = s.schedule ∧ (s.txWrite bs).reads = s.reads ∧ (s.txWrite bs).draws = s.draws := by
  refine ⟨rfl, rfl, rfl, rfl, rfl, rfl, rfl, rfl, rfl, rfl, rfl, rfl, rfl, rfl, rfl, rfl, rfl, rfl, rfl, rfl, rfl, rfl, rfl, rfl, rfl, rfl, rfl, rfl, rfl, rfl, rfl, rfl, rfl, rfl, rfl, rfl, rfl, rfl, rfl⟩

/-- What `txWrite` writes. -/
@[simp] theorem State.txWrite_writes (bs : List Byte) :
    (s.txWrite bs).tx = s.tx ++ [bs] :=
  rfl

/-- What `advance` leaves alone. -/
@[simp] theorem State.advance_unchanged (ms : Nat) :
    (s.advance ms).inst = s.inst ∧ (s.advance ms).op = s.op ∧ (s.advance ms).argClass = s.argClass ∧
    (s.advance ms).argId = s.argId ∧ (s.advance ms).argPlen = s.argPlen ∧ (s.advance ms).argCap = s.argCap ∧
    (s.advance ms).argTimeout = s.argTimeout ∧ (s.advance ms).argTmpl = s.argTmpl ∧ (s.advance ms).status = s.status ∧
    (s.advance ms).resultLen = s.resultLen ∧ (s.advance ms).frameLen = s.frameLen ∧ (s.advance ms).acqStatus = s.acqStatus ∧
    (s.advance ms).cfgStatus = s.cfgStatus ∧ (s.advance ms).variant = s.variant ∧ (s.advance ms).fixReg = s.fixReg ∧
    (s.advance ms).curOp = s.curOp ∧ (s.advance ms).phase = s.phase ∧ (s.advance ms).kIdx = s.kIdx ∧
    (s.advance ms).ackPos = s.ackPos ∧ (s.advance ms).ackBranch = s.ackBranch ∧ (s.advance ms).dmx = s.dmx ∧
    (s.advance ms).t0 = s.t0 ∧ (s.advance ms).deadline = s.deadline ∧ (s.advance ms).accOk = s.accOk ∧
    (s.advance ms).accCap = s.accCap ∧ (s.advance ms).attMask = s.attMask ∧ (s.advance ms).okMask = s.okMask ∧
    (s.advance ms).waiting = s.waiting ∧ (s.advance ms).asleep = s.asleep ∧ (s.advance ms).txp = s.txp ∧
    (s.advance ms).frame = s.frame ∧ (s.advance ms).resp = s.resp ∧ (s.advance ms).rx = s.rx ∧
    (s.advance ms).tx = s.tx ∧ (s.advance ms).sleeps = s.sleeps ∧ (s.advance ms).program = s.program ∧
    (s.advance ms).schedule = s.schedule ∧ (s.advance ms).reads = s.reads ∧ (s.advance ms).draws = s.draws := by
  refine ⟨rfl, rfl, rfl, rfl, rfl, rfl, rfl, rfl, rfl, rfl, rfl, rfl, rfl, rfl, rfl, rfl, rfl, rfl, rfl, rfl, rfl, rfl, rfl, rfl, rfl, rfl, rfl, rfl, rfl, rfl, rfl, rfl, rfl, rfl, rfl, rfl, rfl, rfl, rfl⟩

/-- What `advance` writes. -/
@[simp] theorem State.advance_writes (ms : Nat) :
    (s.advance ms).now = s.now + ms :=
  rfl

/-- What `sleep` leaves alone. -/
@[simp] theorem State.sleep_unchanged (ms : Nat) :
    (s.sleep ms).inst = s.inst ∧ (s.sleep ms).op = s.op ∧ (s.sleep ms).argClass = s.argClass ∧
    (s.sleep ms).argId = s.argId ∧ (s.sleep ms).argPlen = s.argPlen ∧ (s.sleep ms).argCap = s.argCap ∧
    (s.sleep ms).argTimeout = s.argTimeout ∧ (s.sleep ms).argTmpl = s.argTmpl ∧ (s.sleep ms).status = s.status ∧
    (s.sleep ms).resultLen = s.resultLen ∧ (s.sleep ms).frameLen = s.frameLen ∧ (s.sleep ms).acqStatus = s.acqStatus ∧
    (s.sleep ms).cfgStatus = s.cfgStatus ∧ (s.sleep ms).variant = s.variant ∧ (s.sleep ms).fixReg = s.fixReg ∧
    (s.sleep ms).curOp = s.curOp ∧ (s.sleep ms).phase = s.phase ∧ (s.sleep ms).kIdx = s.kIdx ∧
    (s.sleep ms).ackPos = s.ackPos ∧ (s.sleep ms).ackBranch = s.ackBranch ∧ (s.sleep ms).dmx = s.dmx ∧
    (s.sleep ms).t0 = s.t0 ∧ (s.sleep ms).deadline = s.deadline ∧ (s.sleep ms).accOk = s.accOk ∧
    (s.sleep ms).accCap = s.accCap ∧ (s.sleep ms).attMask = s.attMask ∧ (s.sleep ms).okMask = s.okMask ∧
    (s.sleep ms).waiting = s.waiting ∧ (s.sleep ms).txp = s.txp ∧ (s.sleep ms).frame = s.frame ∧
    (s.sleep ms).resp = s.resp ∧ (s.sleep ms).now = s.now ∧ (s.sleep ms).rx = s.rx ∧
    (s.sleep ms).tx = s.tx ∧ (s.sleep ms).program = s.program ∧ (s.sleep ms).schedule = s.schedule ∧
    (s.sleep ms).reads = s.reads ∧ (s.sleep ms).draws = s.draws := by
  refine ⟨rfl, rfl, rfl, rfl, rfl, rfl, rfl, rfl, rfl, rfl, rfl, rfl, rfl, rfl, rfl, rfl, rfl, rfl, rfl, rfl, rfl, rfl, rfl, rfl, rfl, rfl, rfl, rfl, rfl, rfl, rfl, rfl, rfl, rfl, rfl, rfl, rfl, rfl⟩

/-- What `sleep` writes. -/
@[simp] theorem State.sleep_writes (ms : Nat) :
    (s.sleep ms).sleeps = s.sleeps ++ [ms] ∧
    (s.sleep ms).asleep = some ms :=
  ⟨rfl, rfl⟩

/-- What `wake` leaves alone. -/
@[simp] theorem State.wake_unchanged :
    s.wake.inst = s.inst ∧ s.wake.op = s.op ∧ s.wake.argClass = s.argClass ∧
    s.wake.argId = s.argId ∧ s.wake.argPlen = s.argPlen ∧ s.wake.argCap = s.argCap ∧
    s.wake.argTimeout = s.argTimeout ∧ s.wake.argTmpl = s.argTmpl ∧ s.wake.status = s.status ∧
    s.wake.resultLen = s.resultLen ∧ s.wake.frameLen = s.frameLen ∧ s.wake.acqStatus = s.acqStatus ∧
    s.wake.cfgStatus = s.cfgStatus ∧ s.wake.variant = s.variant ∧ s.wake.fixReg = s.fixReg ∧
    s.wake.curOp = s.curOp ∧ s.wake.phase = s.phase ∧ s.wake.kIdx = s.kIdx ∧
    s.wake.ackPos = s.ackPos ∧ s.wake.ackBranch = s.ackBranch ∧ s.wake.dmx = s.dmx ∧
    s.wake.t0 = s.t0 ∧ s.wake.deadline = s.deadline ∧ s.wake.accOk = s.accOk ∧
    s.wake.accCap = s.accCap ∧ s.wake.attMask = s.attMask ∧ s.wake.okMask = s.okMask ∧
    s.wake.waiting = s.waiting ∧ s.wake.txp = s.txp ∧ s.wake.frame = s.frame ∧
    s.wake.resp = s.resp ∧ s.wake.now = s.now ∧ s.wake.rx = s.rx ∧
    s.wake.tx = s.tx ∧ s.wake.sleeps = s.sleeps ∧ s.wake.program = s.program ∧
    s.wake.schedule = s.schedule ∧ s.wake.reads = s.reads ∧ s.wake.draws = s.draws := by
  refine ⟨rfl, rfl, rfl, rfl, rfl, rfl, rfl, rfl, rfl, rfl, rfl, rfl, rfl, rfl, rfl, rfl, rfl, rfl, rfl, rfl, rfl, rfl, rfl, rfl, rfl, rfl, rfl, rfl, rfl, rfl, rfl, rfl, rfl, rfl, rfl, rfl, rfl, rfl, rfl⟩

/-- What `wake` writes. -/
@[simp] theorem State.wake_writes :
    s.wake.asleep = none :=
  rfl

/-- What `freeDraw` leaves alone. -/
@[simp] theorem State.freeDraw_unchanged :
    s.freeDraw.inst = s.inst ∧ s.freeDraw.op = s.op ∧ s.freeDraw.argClass = s.argClass ∧
    s.freeDraw.argId = s.argId ∧ s.freeDraw.argPlen = s.argPlen ∧ s.freeDraw.argCap = s.argCap ∧
    s.freeDraw.argTimeout = s.argTimeout ∧ s.freeDraw.argTmpl = s.argTmpl ∧ s.freeDraw.status = s.status ∧
    s.freeDraw.resultLen = s.resultLen ∧ s.freeDraw.frameLen = s.frameLen ∧ s.freeDraw.acqStatus = s.acqStatus ∧
    s.freeDraw.cfgStatus = s.cfgStatus ∧ s.freeDraw.variant = s.variant ∧ s.freeDraw.fixReg = s.fixReg ∧
    s.freeDraw.curOp = s.curOp ∧ s.freeDraw.phase = s.phase ∧ s.freeDraw.kIdx = s.kIdx ∧
    s.freeDraw.ackPos = s.ackPos ∧ s.freeDraw.ackBranch = s.ackBranch ∧ s.freeDraw.dmx = s.dmx ∧
    s.freeDraw.t0 = s.t0 ∧ s.freeDraw.deadline = s.deadline ∧ s.freeDraw.accOk = s.accOk ∧
    s.freeDraw.accCap = s.accCap ∧ s.freeDraw.attMask = s.attMask ∧ s.freeDraw.okMask = s.okMask ∧
    s.freeDraw.waiting = s.waiting ∧ s.freeDraw.asleep = s.asleep ∧ s.freeDraw.txp = s.txp ∧
    s.freeDraw.frame = s.frame ∧ s.freeDraw.resp = s.resp ∧ s.freeDraw.tx = s.tx ∧
    s.freeDraw.sleeps = s.sleeps ∧ s.freeDraw.program = s.program ∧ s.freeDraw.schedule = s.schedule ∧
    s.freeDraw.reads = s.reads := by
  refine ⟨rfl, rfl, rfl, rfl, rfl, rfl, rfl, rfl, rfl, rfl, rfl, rfl, rfl, rfl, rfl, rfl, rfl, rfl, rfl, rfl, rfl, rfl, rfl, rfl, rfl, rfl, rfl, rfl, rfl, rfl, rfl, rfl, rfl, rfl, rfl, rfl, rfl⟩

/-- What `freeDraw` writes. -/
@[simp] theorem State.freeDraw_writes :
    s.freeDraw.now = s.now + clockDraw s.draws ∧
    s.freeDraw.rx = s.rx ++ Config.arrivalDraw s.draws ∧
    s.freeDraw.draws = s.draws + 1 :=
  ⟨rfl, rfl, rfl⟩

/-- What `finish` leaves alone. -/
@[simp] theorem State.finish_unchanged (ok : Bool) (err : ErrCode) :
    (s.finish ok err).inst = s.inst ∧ (s.finish ok err).op = s.op ∧ (s.finish ok err).argClass = s.argClass ∧
    (s.finish ok err).argId = s.argId ∧ (s.finish ok err).argPlen = s.argPlen ∧ (s.finish ok err).argCap = s.argCap ∧
    (s.finish ok err).argTimeout = s.argTimeout ∧ (s.finish ok err).argTmpl = s.argTmpl ∧ (s.finish ok err).resultLen = s.resultLen ∧
    (s.finish ok err).frameLen = s.frameLen ∧ (s.finish ok err).acqStatus = s.acqStatus ∧ (s.finish ok err).cfgStatus = s.cfgStatus ∧
    (s.finish ok err).variant = s.variant ∧ (s.finish ok err).fixReg = s.fixReg ∧ (s.finish ok err).curOp = s.curOp ∧
    (s.finish ok err).phase = s.phase ∧ (s.finish ok err).kIdx = s.kIdx ∧ (s.finish ok err).ackPos = s.ackPos ∧
    (s.finish ok err).ackBranch = s.ackBranch ∧ (s.finish ok err).dmx = s.dmx ∧ (s.finish ok err).t0 = s.t0 ∧
    (s.finish ok err).deadline = s.deadline ∧ (s.finish ok err).accOk = s.accOk ∧ (s.finish ok err).accCap = s.accCap ∧
    (s.finish ok err).attMask = s.attMask ∧ (s.finish ok err).okMask = s.okMask ∧ (s.finish ok err).asleep = s.asleep ∧
    (s.finish ok err).txp = s.txp ∧ (s.finish ok err).frame = s.frame ∧ (s.finish ok err).resp = s.resp ∧
    (s.finish ok err).now = s.now ∧ (s.finish ok err).rx = s.rx ∧ (s.finish ok err).tx = s.tx ∧
    (s.finish ok err).sleeps = s.sleeps ∧ (s.finish ok err).program = s.program ∧ (s.finish ok err).schedule = s.schedule ∧
    (s.finish ok err).reads = s.reads ∧ (s.finish ok err).draws = s.draws := by
  refine ⟨rfl, rfl, rfl, rfl, rfl, rfl, rfl, rfl, rfl, rfl, rfl, rfl, rfl, rfl, rfl, rfl, rfl, rfl, rfl, rfl, rfl, rfl, rfl, rfl, rfl, rfl, rfl, rfl, rfl, rfl, rfl, rfl, rfl, rfl, rfl, rfl, rfl, rfl⟩

/-- What `finish` writes. -/
@[simp] theorem State.finish_writes (ok : Bool) (err : ErrCode) :
    (s.finish ok err).status = { busy := false, done := true, ok := ok, err := err, acked := s.status.acked } ∧
    (s.finish ok err).waiting = false :=
  ⟨rfl, rfl⟩

/-- What `setAcked` leaves alone. -/
@[simp] theorem State.setAcked_unchanged (a : Bool) :
    (s.setAcked a).inst = s.inst ∧ (s.setAcked a).op = s.op ∧ (s.setAcked a).argClass = s.argClass ∧
    (s.setAcked a).argId = s.argId ∧ (s.setAcked a).argPlen = s.argPlen ∧ (s.setAcked a).argCap = s.argCap ∧
    (s.setAcked a).argTimeout = s.argTimeout ∧ (s.setAcked a).argTmpl = s.argTmpl ∧ (s.setAcked a).resultLen = s.resultLen ∧
    (s.setAcked a).frameLen = s.frameLen ∧ (s.setAcked a).acqStatus = s.acqStatus ∧ (s.setAcked a).cfgStatus = s.cfgStatus ∧
    (s.setAcked a).variant = s.variant ∧ (s.setAcked a).fixReg = s.fixReg ∧ (s.setAcked a).curOp = s.curOp ∧
    (s.setAcked a).phase = s.phase ∧ (s.setAcked a).kIdx = s.kIdx ∧ (s.setAcked a).ackPos = s.ackPos ∧
    (s.setAcked a).ackBranch = s.ackBranch ∧ (s.setAcked a).dmx = s.dmx ∧ (s.setAcked a).t0 = s.t0 ∧
    (s.setAcked a).deadline = s.deadline ∧ (s.setAcked a).accOk = s.accOk ∧ (s.setAcked a).accCap = s.accCap ∧
    (s.setAcked a).attMask = s.attMask ∧ (s.setAcked a).okMask = s.okMask ∧ (s.setAcked a).waiting = s.waiting ∧
    (s.setAcked a).asleep = s.asleep ∧ (s.setAcked a).txp = s.txp ∧ (s.setAcked a).frame = s.frame ∧
    (s.setAcked a).resp = s.resp ∧ (s.setAcked a).now = s.now ∧ (s.setAcked a).rx = s.rx ∧
    (s.setAcked a).tx = s.tx ∧ (s.setAcked a).sleeps = s.sleeps ∧ (s.setAcked a).program = s.program ∧
    (s.setAcked a).schedule = s.schedule ∧ (s.setAcked a).reads = s.reads ∧ (s.setAcked a).draws = s.draws := by
  refine ⟨rfl, rfl, rfl, rfl, rfl, rfl, rfl, rfl, rfl, rfl, rfl, rfl, rfl, rfl, rfl, rfl, rfl, rfl, rfl, rfl, rfl, rfl, rfl, rfl, rfl, rfl, rfl, rfl, rfl, rfl, rfl, rfl, rfl, rfl, rfl, rfl, rfl, rfl, rfl⟩

/-- What `setAcked` writes. -/
@[simp] theorem State.setAcked_writes (a : Bool) :
    (s.setAcked a).status = { s.status with acked := a } :=
  rfl

/-- What `finishOkOrFail` leaves alone. -/
@[simp] theorem State.finishOkOrFail_unchanged (b : Bool) :
    (s.finishOkOrFail b).inst = s.inst ∧ (s.finishOkOrFail b).op = s.op ∧ (s.finishOkOrFail b).argClass = s.argClass ∧
    (s.finishOkOrFail b).argId = s.argId ∧ (s.finishOkOrFail b).argPlen = s.argPlen ∧ (s.finishOkOrFail b).argCap = s.argCap ∧
    (s.finishOkOrFail b).argTimeout = s.argTimeout ∧ (s.finishOkOrFail b).argTmpl = s.argTmpl ∧ (s.finishOkOrFail b).resultLen = s.resultLen ∧
    (s.finishOkOrFail b).frameLen = s.frameLen ∧ (s.finishOkOrFail b).acqStatus = s.acqStatus ∧ (s.finishOkOrFail b).cfgStatus = s.cfgStatus ∧
    (s.finishOkOrFail b).variant = s.variant ∧ (s.finishOkOrFail b).fixReg = s.fixReg ∧ (s.finishOkOrFail b).curOp = s.curOp ∧
    (s.finishOkOrFail b).phase = s.phase ∧ (s.finishOkOrFail b).kIdx = s.kIdx ∧ (s.finishOkOrFail b).ackPos = s.ackPos ∧
    (s.finishOkOrFail b).ackBranch = s.ackBranch ∧ (s.finishOkOrFail b).dmx = s.dmx ∧ (s.finishOkOrFail b).t0 = s.t0 ∧
    (s.finishOkOrFail b).deadline = s.deadline ∧ (s.finishOkOrFail b).accOk = s.accOk ∧ (s.finishOkOrFail b).accCap = s.accCap ∧
    (s.finishOkOrFail b).attMask = s.attMask ∧ (s.finishOkOrFail b).okMask = s.okMask ∧ (s.finishOkOrFail b).asleep = s.asleep ∧
    (s.finishOkOrFail b).txp = s.txp ∧ (s.finishOkOrFail b).frame = s.frame ∧ (s.finishOkOrFail b).resp = s.resp ∧
    (s.finishOkOrFail b).now = s.now ∧ (s.finishOkOrFail b).rx = s.rx ∧ (s.finishOkOrFail b).tx = s.tx ∧
    (s.finishOkOrFail b).sleeps = s.sleeps ∧ (s.finishOkOrFail b).program = s.program ∧ (s.finishOkOrFail b).schedule = s.schedule ∧
    (s.finishOkOrFail b).reads = s.reads ∧ (s.finishOkOrFail b).draws = s.draws := by
  refine ⟨rfl, rfl, rfl, rfl, rfl, rfl, rfl, rfl, rfl, rfl, rfl, rfl, rfl, rfl, rfl, rfl, rfl, rfl, rfl, rfl, rfl, rfl, rfl, rfl, rfl, rfl, rfl, rfl, rfl, rfl, rfl, rfl, rfl, rfl, rfl, rfl, rfl, rfl⟩

/-- What `finishOkOrFail` writes. -/
@[simp] theorem State.finishOkOrFail_writes (b : Bool) :
    (s.finishOkOrFail b).status = { busy := false, done := true, ok := b, err := if b then .none else .fail, acked := s.status.acked } ∧
    (s.finishOkOrFail b).waiting = false :=
  ⟨rfl, rfl⟩

/-- What `issue` leaves alone. -/
@[simp] theorem State.issue_unchanged (v : Byte) :
    (s.issue v).inst = s.inst ∧ (s.issue v).argClass = s.argClass ∧ (s.issue v).argId = s.argId ∧
    (s.issue v).argPlen = s.argPlen ∧ (s.issue v).argCap = s.argCap ∧ (s.issue v).argTimeout = s.argTimeout ∧
    (s.issue v).argTmpl = s.argTmpl ∧ (s.issue v).resultLen = s.resultLen ∧ (s.issue v).frameLen = s.frameLen ∧
    (s.issue v).acqStatus = s.acqStatus ∧ (s.issue v).cfgStatus = s.cfgStatus ∧ (s.issue v).variant = s.variant ∧
    (s.issue v).fixReg = s.fixReg ∧ (s.issue v).kIdx = s.kIdx ∧ (s.issue v).ackPos = s.ackPos ∧
    (s.issue v).ackBranch = s.ackBranch ∧ (s.issue v).dmx = s.dmx ∧ (s.issue v).t0 = s.t0 ∧
    (s.issue v).deadline = s.deadline ∧ (s.issue v).accOk = s.accOk ∧ (s.issue v).accCap = s.accCap ∧
    (s.issue v).attMask = s.attMask ∧ (s.issue v).okMask = s.okMask ∧ (s.issue v).asleep = s.asleep ∧
    (s.issue v).txp = s.txp ∧ (s.issue v).frame = s.frame ∧ (s.issue v).resp = s.resp ∧
    (s.issue v).now = s.now ∧ (s.issue v).rx = s.rx ∧ (s.issue v).tx = s.tx ∧
    (s.issue v).sleeps = s.sleeps ∧ (s.issue v).program = s.program ∧ (s.issue v).schedule = s.schedule ∧
    (s.issue v).reads = s.reads ∧ (s.issue v).draws = s.draws := by
  refine ⟨rfl, rfl, rfl, rfl, rfl, rfl, rfl, rfl, rfl, rfl, rfl, rfl, rfl, rfl, rfl, rfl, rfl, rfl, rfl, rfl, rfl, rfl, rfl, rfl, rfl, rfl, rfl, rfl, rfl, rfl, rfl, rfl, rfl, rfl, rfl⟩

/-- What `issue` writes. -/
@[simp] theorem State.issue_writes (v : Byte) :
    (s.issue v).op = v ∧
    (s.issue v).status = { busy := true, done := false, ok := false, err := .none, acked := false } ∧
    (s.issue v).curOp = v ∧
    (s.issue v).phase = 0 ∧
    (s.issue v).waiting = false :=
  ⟨rfl, rfl, rfl, rfl, rfl⟩

/-- What `encodeToFrame` leaves alone. -/
@[simp] theorem State.encodeToFrame_unchanged (c i : Byte) (p : List Byte) :
    (s.encodeToFrame c i p).inst = s.inst ∧ (s.encodeToFrame c i p).op = s.op ∧ (s.encodeToFrame c i p).argClass = s.argClass ∧
    (s.encodeToFrame c i p).argId = s.argId ∧ (s.encodeToFrame c i p).argPlen = s.argPlen ∧ (s.encodeToFrame c i p).argCap = s.argCap ∧
    (s.encodeToFrame c i p).argTimeout = s.argTimeout ∧ (s.encodeToFrame c i p).argTmpl = s.argTmpl ∧ (s.encodeToFrame c i p).status = s.status ∧
    (s.encodeToFrame c i p).resultLen = s.resultLen ∧ (s.encodeToFrame c i p).acqStatus = s.acqStatus ∧ (s.encodeToFrame c i p).cfgStatus = s.cfgStatus ∧
    (s.encodeToFrame c i p).variant = s.variant ∧ (s.encodeToFrame c i p).fixReg = s.fixReg ∧ (s.encodeToFrame c i p).curOp = s.curOp ∧
    (s.encodeToFrame c i p).phase = s.phase ∧ (s.encodeToFrame c i p).kIdx = s.kIdx ∧ (s.encodeToFrame c i p).ackPos = s.ackPos ∧
    (s.encodeToFrame c i p).ackBranch = s.ackBranch ∧ (s.encodeToFrame c i p).dmx = s.dmx ∧ (s.encodeToFrame c i p).t0 = s.t0 ∧
    (s.encodeToFrame c i p).deadline = s.deadline ∧ (s.encodeToFrame c i p).accOk = s.accOk ∧ (s.encodeToFrame c i p).accCap = s.accCap ∧
    (s.encodeToFrame c i p).attMask = s.attMask ∧ (s.encodeToFrame c i p).okMask = s.okMask ∧ (s.encodeToFrame c i p).waiting = s.waiting ∧
    (s.encodeToFrame c i p).asleep = s.asleep ∧ (s.encodeToFrame c i p).txp = s.txp ∧ (s.encodeToFrame c i p).resp = s.resp ∧
    (s.encodeToFrame c i p).now = s.now ∧ (s.encodeToFrame c i p).rx = s.rx ∧ (s.encodeToFrame c i p).tx = s.tx ∧
    (s.encodeToFrame c i p).sleeps = s.sleeps ∧ (s.encodeToFrame c i p).program = s.program ∧ (s.encodeToFrame c i p).schedule = s.schedule ∧
    (s.encodeToFrame c i p).reads = s.reads ∧ (s.encodeToFrame c i p).draws = s.draws := by
  refine ⟨rfl, rfl, rfl, rfl, rfl, rfl, rfl, rfl, rfl, rfl, rfl, rfl, rfl, rfl, rfl, rfl, rfl, rfl, rfl, rfl, rfl, rfl, rfl, rfl, rfl, rfl, rfl, rfl, rfl, rfl, rfl, rfl, rfl, rfl, rfl, rfl, rfl, rfl⟩

/-- What `encodeToFrame` writes. -/
@[simp] theorem State.encodeToFrame_writes (c i : Byte) (p : List Byte) :
    (s.encodeToFrame c i p).frame = Memory.writeRange s.frame 0 (frameBytes c i p) ∧
    (s.encodeToFrame c i p).frameLen = BitVec.ofNat 32 (p.length + 8) :=
  ⟨rfl, rfl⟩

/-- What `sendPollRequest` leaves alone. -/
@[simp] theorem State.sendPollRequest_unchanged (c i : Byte) :
    (s.sendPollRequest c i).inst = s.inst ∧ (s.sendPollRequest c i).op = s.op ∧ (s.sendPollRequest c i).argClass = s.argClass ∧
    (s.sendPollRequest c i).argId = s.argId ∧ (s.sendPollRequest c i).argPlen = s.argPlen ∧ (s.sendPollRequest c i).argCap = s.argCap ∧
    (s.sendPollRequest c i).argTimeout = s.argTimeout ∧ (s.sendPollRequest c i).argTmpl = s.argTmpl ∧ (s.sendPollRequest c i).status = s.status ∧
    (s.sendPollRequest c i).resultLen = s.resultLen ∧ (s.sendPollRequest c i).acqStatus = s.acqStatus ∧ (s.sendPollRequest c i).cfgStatus = s.cfgStatus ∧
    (s.sendPollRequest c i).variant = s.variant ∧ (s.sendPollRequest c i).fixReg = s.fixReg ∧ (s.sendPollRequest c i).curOp = s.curOp ∧
    (s.sendPollRequest c i).kIdx = s.kIdx ∧ (s.sendPollRequest c i).ackPos = s.ackPos ∧ (s.sendPollRequest c i).ackBranch = s.ackBranch ∧
    (s.sendPollRequest c i).dmx = s.dmx ∧ (s.sendPollRequest c i).t0 = s.t0 ∧ (s.sendPollRequest c i).deadline = s.deadline ∧
    (s.sendPollRequest c i).accOk = s.accOk ∧ (s.sendPollRequest c i).accCap = s.accCap ∧ (s.sendPollRequest c i).attMask = s.attMask ∧
    (s.sendPollRequest c i).okMask = s.okMask ∧ (s.sendPollRequest c i).waiting = s.waiting ∧ (s.sendPollRequest c i).asleep = s.asleep ∧
    (s.sendPollRequest c i).txp = s.txp ∧ (s.sendPollRequest c i).resp = s.resp ∧ (s.sendPollRequest c i).now = s.now ∧
    (s.sendPollRequest c i).rx = s.rx ∧ (s.sendPollRequest c i).sleeps = s.sleeps ∧ (s.sendPollRequest c i).program = s.program ∧
    (s.sendPollRequest c i).schedule = s.schedule ∧ (s.sendPollRequest c i).reads = s.reads ∧ (s.sendPollRequest c i).draws = s.draws := by
  refine ⟨rfl, rfl, rfl, rfl, rfl, rfl, rfl, rfl, rfl, rfl, rfl, rfl, rfl, rfl, rfl, rfl, rfl, rfl, rfl, rfl, rfl, rfl, rfl, rfl, rfl, rfl, rfl, rfl, rfl, rfl, rfl, rfl, rfl, rfl, rfl, rfl⟩

/-- What `sendPollRequest` writes. -/
@[simp] theorem State.sendPollRequest_writes (c i : Byte) :
    (s.sendPollRequest c i).frame = Memory.writeRange s.frame 0 (pollFrame c i) ∧
    (s.sendPollRequest c i).frameLen = 8 ∧
    (s.sendPollRequest c i).tx = s.tx ++ [Memory.readRange (Memory.writeRange s.frame 0 (pollFrame c i)) 0 8] ∧
    (s.sendPollRequest c i).phase = s.phase + 2 :=
  ⟨rfl, rfl, rfl, rfl⟩

/-- What `ackBegin` leaves alone. -/
@[simp] theorem State.ackBegin_unchanged :
    s.ackBegin.inst = s.inst ∧ s.ackBegin.op = s.op ∧ s.ackBegin.argClass = s.argClass ∧
    s.ackBegin.argId = s.argId ∧ s.ackBegin.argPlen = s.argPlen ∧ s.ackBegin.argCap = s.argCap ∧
    s.ackBegin.argTimeout = s.argTimeout ∧ s.ackBegin.argTmpl = s.argTmpl ∧ s.ackBegin.status = s.status ∧
    s.ackBegin.resultLen = s.resultLen ∧ s.ackBegin.frameLen = s.frameLen ∧ s.ackBegin.acqStatus = s.acqStatus ∧
    s.ackBegin.cfgStatus = s.cfgStatus ∧ s.ackBegin.variant = s.variant ∧ s.ackBegin.fixReg = s.fixReg ∧
    s.ackBegin.curOp = s.curOp ∧ s.ackBegin.phase = s.phase ∧ s.ackBegin.kIdx = s.kIdx ∧
    s.ackBegin.dmx = s.dmx ∧ s.ackBegin.accOk = s.accOk ∧ s.ackBegin.accCap = s.accCap ∧
    s.ackBegin.attMask = s.attMask ∧ s.ackBegin.okMask = s.okMask ∧ s.ackBegin.asleep = s.asleep ∧
    s.ackBegin.txp = s.txp ∧ s.ackBegin.frame = s.frame ∧ s.ackBegin.resp = s.resp ∧
    s.ackBegin.now = s.now ∧ s.ackBegin.rx = s.rx ∧ s.ackBegin.tx = s.tx ∧
    s.ackBegin.sleeps = s.sleeps ∧ s.ackBegin.program = s.program ∧ s.ackBegin.schedule = s.schedule ∧
    s.ackBegin.reads = s.reads ∧ s.ackBegin.draws = s.draws := by
  refine ⟨rfl, rfl, rfl, rfl, rfl, rfl, rfl, rfl, rfl, rfl, rfl, rfl, rfl, rfl, rfl, rfl, rfl, rfl, rfl, rfl, rfl, rfl, rfl, rfl, rfl, rfl, rfl, rfl, rfl, rfl, rfl, rfl, rfl, rfl, rfl⟩

/-- What `ackBegin` writes. -/
@[simp] theorem State.ackBegin_writes :
    s.ackBegin.ackPos = 0 ∧
    s.ackBegin.ackBranch = false ∧
    s.ackBegin.t0 = s.now ∧
    s.ackBegin.deadline = s.now + s.argTimeout.toNat ∧
    s.ackBegin.waiting = true :=
  ⟨rfl, rfl, rfl, rfl, rfl⟩

/-- What `recvBegin` leaves alone. -/
@[simp] theorem State.recvBegin_unchanged :
    s.recvBegin.inst = s.inst ∧ s.recvBegin.op = s.op ∧ s.recvBegin.argClass = s.argClass ∧
    s.recvBegin.argId = s.argId ∧ s.recvBegin.argPlen = s.argPlen ∧ s.recvBegin.argCap = s.argCap ∧
    s.recvBegin.argTimeout = s.argTimeout ∧ s.recvBegin.argTmpl = s.argTmpl ∧ s.recvBegin.status = s.status ∧
    s.recvBegin.resultLen = s.resultLen ∧ s.recvBegin.frameLen = s.frameLen ∧ s.recvBegin.acqStatus = s.acqStatus ∧
    s.recvBegin.cfgStatus = s.cfgStatus ∧ s.recvBegin.variant = s.variant ∧ s.recvBegin.fixReg = s.fixReg ∧
    s.recvBegin.curOp = s.curOp ∧ s.recvBegin.phase = s.phase ∧ s.recvBegin.kIdx = s.kIdx ∧
    s.recvBegin.ackPos = s.ackPos ∧ s.recvBegin.ackBranch = s.ackBranch ∧ s.recvBegin.accOk = s.accOk ∧
    s.recvBegin.accCap = s.accCap ∧ s.recvBegin.attMask = s.attMask ∧ s.recvBegin.okMask = s.okMask ∧
    s.recvBegin.asleep = s.asleep ∧ s.recvBegin.txp = s.txp ∧ s.recvBegin.frame = s.frame ∧
    s.recvBegin.resp = s.resp ∧ s.recvBegin.now = s.now ∧ s.recvBegin.rx = s.rx ∧
    s.recvBegin.tx = s.tx ∧ s.recvBegin.sleeps = s.sleeps ∧ s.recvBegin.program = s.program ∧
    s.recvBegin.schedule = s.schedule ∧ s.recvBegin.reads = s.reads ∧ s.recvBegin.draws = s.draws := by
  refine ⟨rfl, rfl, rfl, rfl, rfl, rfl, rfl, rfl, rfl, rfl, rfl, rfl, rfl, rfl, rfl, rfl, rfl, rfl, rfl, rfl, rfl, rfl, rfl, rfl, rfl, rfl, rfl, rfl, rfl, rfl, rfl, rfl, rfl, rfl, rfl, rfl⟩

/-- What `recvBegin` writes. -/
@[simp] theorem State.recvBegin_writes :
    s.recvBegin.dmx = Dmx.reset ∧
    s.recvBegin.t0 = s.now ∧
    s.recvBegin.deadline = s.now + s.argTimeout.toNat ∧
    s.recvBegin.waiting = true :=
  ⟨rfl, rfl, rfl, rfl⟩

/-- What `recvFinish` leaves alone. -/
@[simp] theorem State.recvFinish_unchanged (r : RecvResult) :
    (s.recvFinish r).inst = s.inst ∧ (s.recvFinish r).op = s.op ∧ (s.recvFinish r).argClass = s.argClass ∧
    (s.recvFinish r).argId = s.argId ∧ (s.recvFinish r).argPlen = s.argPlen ∧ (s.recvFinish r).argCap = s.argCap ∧
    (s.recvFinish r).argTimeout = s.argTimeout ∧ (s.recvFinish r).argTmpl = s.argTmpl ∧ (s.recvFinish r).frameLen = s.frameLen ∧
    (s.recvFinish r).acqStatus = s.acqStatus ∧ (s.recvFinish r).cfgStatus = s.cfgStatus ∧ (s.recvFinish r).variant = s.variant ∧
    (s.recvFinish r).fixReg = s.fixReg ∧ (s.recvFinish r).curOp = s.curOp ∧ (s.recvFinish r).phase = s.phase ∧
    (s.recvFinish r).kIdx = s.kIdx ∧ (s.recvFinish r).ackPos = s.ackPos ∧ (s.recvFinish r).ackBranch = s.ackBranch ∧
    (s.recvFinish r).dmx = s.dmx ∧ (s.recvFinish r).t0 = s.t0 ∧ (s.recvFinish r).deadline = s.deadline ∧
    (s.recvFinish r).accOk = s.accOk ∧ (s.recvFinish r).accCap = s.accCap ∧ (s.recvFinish r).attMask = s.attMask ∧
    (s.recvFinish r).okMask = s.okMask ∧ (s.recvFinish r).asleep = s.asleep ∧ (s.recvFinish r).txp = s.txp ∧
    (s.recvFinish r).frame = s.frame ∧ (s.recvFinish r).resp = s.resp ∧ (s.recvFinish r).now = s.now ∧
    (s.recvFinish r).rx = s.rx ∧ (s.recvFinish r).tx = s.tx ∧ (s.recvFinish r).sleeps = s.sleeps ∧
    (s.recvFinish r).program = s.program ∧ (s.recvFinish r).schedule = s.schedule ∧ (s.recvFinish r).reads = s.reads ∧
    (s.recvFinish r).draws = s.draws := by
  refine ⟨rfl, rfl, rfl, rfl, rfl, rfl, rfl, rfl, rfl, rfl, rfl, rfl, rfl, rfl, rfl, rfl, rfl, rfl, rfl, rfl, rfl, rfl, rfl, rfl, rfl, rfl, rfl, rfl, rfl, rfl, rfl, rfl, rfl, rfl, rfl, rfl, rfl⟩

/-- What `recvFinish` writes. -/
@[simp] theorem State.recvFinish_writes (r : RecvResult) :
    (s.recvFinish r).resultLen = r.length ∧
    (s.recvFinish r).status = { busy := false, done := true, ok := r.succeeded, err := r.err, acked := s.status.acked } ∧
    (s.recvFinish r).waiting = false :=
  ⟨rfl, rfl, rfl⟩

/-- What `record` leaves alone. -/
@[simp] theorem State.record_unchanged (r : Reading) :
    (s.record r).inst = s.inst ∧ (s.record r).op = s.op ∧ (s.record r).argClass = s.argClass ∧
    (s.record r).argId = s.argId ∧ (s.record r).argPlen = s.argPlen ∧ (s.record r).argCap = s.argCap ∧
    (s.record r).argTimeout = s.argTimeout ∧ (s.record r).argTmpl = s.argTmpl ∧ (s.record r).status = s.status ∧
    (s.record r).resultLen = s.resultLen ∧ (s.record r).frameLen = s.frameLen ∧ (s.record r).acqStatus = s.acqStatus ∧
    (s.record r).cfgStatus = s.cfgStatus ∧ (s.record r).variant = s.variant ∧ (s.record r).fixReg = s.fixReg ∧
    (s.record r).curOp = s.curOp ∧ (s.record r).phase = s.phase ∧ (s.record r).kIdx = s.kIdx ∧
    (s.record r).ackPos = s.ackPos ∧ (s.record r).ackBranch = s.ackBranch ∧ (s.record r).dmx = s.dmx ∧
    (s.record r).t0 = s.t0 ∧ (s.record r).deadline = s.deadline ∧ (s.record r).accOk = s.accOk ∧
    (s.record r).accCap = s.accCap ∧ (s.record r).attMask = s.attMask ∧ (s.record r).okMask = s.okMask ∧
    (s.record r).waiting = s.waiting ∧ (s.record r).asleep = s.asleep ∧ (s.record r).txp = s.txp ∧
    (s.record r).frame = s.frame ∧ (s.record r).resp = s.resp ∧ (s.record r).now = s.now ∧
    (s.record r).rx = s.rx ∧ (s.record r).tx = s.tx ∧ (s.record r).sleeps = s.sleeps ∧
    (s.record r).program = s.program ∧ (s.record r).schedule = s.schedule ∧ (s.record r).draws = s.draws := by
  refine ⟨rfl, rfl, rfl, rfl, rfl, rfl, rfl, rfl, rfl, rfl, rfl, rfl, rfl, rfl, rfl, rfl, rfl, rfl, rfl, rfl, rfl, rfl, rfl, rfl, rfl, rfl, rfl, rfl, rfl, rfl, rfl, rfl, rfl, rfl, rfl, rfl, rfl, rfl, rfl⟩

/-- What `record` writes. -/
@[simp] theorem State.record_writes (r : Reading) :
    (s.record r).reads = s.reads ++ [r] :=
  rfl

/-- What `decodePvt` leaves alone. -/
@[simp] theorem State.decodePvt_unchanged :
    s.decodePvt.inst = s.inst ∧ s.decodePvt.op = s.op ∧ s.decodePvt.argClass = s.argClass ∧
    s.decodePvt.argId = s.argId ∧ s.decodePvt.argPlen = s.argPlen ∧ s.decodePvt.argCap = s.argCap ∧
    s.decodePvt.argTimeout = s.argTimeout ∧ s.decodePvt.argTmpl = s.argTmpl ∧ s.decodePvt.status = s.status ∧
    s.decodePvt.resultLen = s.resultLen ∧ s.decodePvt.frameLen = s.frameLen ∧ s.decodePvt.acqStatus = s.acqStatus ∧
    s.decodePvt.cfgStatus = s.cfgStatus ∧ s.decodePvt.variant = s.variant ∧ s.decodePvt.curOp = s.curOp ∧
    s.decodePvt.phase = s.phase ∧ s.decodePvt.kIdx = s.kIdx ∧ s.decodePvt.ackPos = s.ackPos ∧
    s.decodePvt.ackBranch = s.ackBranch ∧ s.decodePvt.dmx = s.dmx ∧ s.decodePvt.t0 = s.t0 ∧
    s.decodePvt.deadline = s.deadline ∧ s.decodePvt.accOk = s.accOk ∧ s.decodePvt.accCap = s.accCap ∧
    s.decodePvt.attMask = s.attMask ∧ s.decodePvt.okMask = s.okMask ∧ s.decodePvt.waiting = s.waiting ∧
    s.decodePvt.asleep = s.asleep ∧ s.decodePvt.txp = s.txp ∧ s.decodePvt.frame = s.frame ∧
    s.decodePvt.resp = s.resp ∧ s.decodePvt.now = s.now ∧ s.decodePvt.rx = s.rx ∧
    s.decodePvt.tx = s.tx ∧ s.decodePvt.sleeps = s.sleeps ∧ s.decodePvt.program = s.program ∧
    s.decodePvt.schedule = s.schedule ∧ s.decodePvt.reads = s.reads ∧ s.decodePvt.draws = s.draws := by
  refine ⟨rfl, rfl, rfl, rfl, rfl, rfl, rfl, rfl, rfl, rfl, rfl, rfl, rfl, rfl, rfl, rfl, rfl, rfl, rfl, rfl, rfl, rfl, rfl, rfl, rfl, rfl, rfl, rfl, rfl, rfl, rfl, rfl, rfl, rfl, rfl, rfl, rfl, rfl, rfl⟩

/-- What `decodePos` leaves alone. -/
@[simp] theorem State.decodePos_unchanged :
    s.decodePos.inst = s.inst ∧ s.decodePos.op = s.op ∧ s.decodePos.argClass = s.argClass ∧
    s.decodePos.argId = s.argId ∧ s.decodePos.argPlen = s.argPlen ∧ s.decodePos.argCap = s.argCap ∧
    s.decodePos.argTimeout = s.argTimeout ∧ s.decodePos.argTmpl = s.argTmpl ∧ s.decodePos.status = s.status ∧
    s.decodePos.resultLen = s.resultLen ∧ s.decodePos.frameLen = s.frameLen ∧ s.decodePos.acqStatus = s.acqStatus ∧
    s.decodePos.cfgStatus = s.cfgStatus ∧ s.decodePos.variant = s.variant ∧ s.decodePos.curOp = s.curOp ∧
    s.decodePos.phase = s.phase ∧ s.decodePos.kIdx = s.kIdx ∧ s.decodePos.ackPos = s.ackPos ∧
    s.decodePos.ackBranch = s.ackBranch ∧ s.decodePos.dmx = s.dmx ∧ s.decodePos.t0 = s.t0 ∧
    s.decodePos.deadline = s.deadline ∧ s.decodePos.accOk = s.accOk ∧ s.decodePos.accCap = s.accCap ∧
    s.decodePos.attMask = s.attMask ∧ s.decodePos.okMask = s.okMask ∧ s.decodePos.waiting = s.waiting ∧
    s.decodePos.asleep = s.asleep ∧ s.decodePos.txp = s.txp ∧ s.decodePos.frame = s.frame ∧
    s.decodePos.resp = s.resp ∧ s.decodePos.now = s.now ∧ s.decodePos.rx = s.rx ∧
    s.decodePos.tx = s.tx ∧ s.decodePos.sleeps = s.sleeps ∧ s.decodePos.program = s.program ∧
    s.decodePos.schedule = s.schedule ∧ s.decodePos.reads = s.reads ∧ s.decodePos.draws = s.draws := by
  refine ⟨rfl, rfl, rfl, rfl, rfl, rfl, rfl, rfl, rfl, rfl, rfl, rfl, rfl, rfl, rfl, rfl, rfl, rfl, rfl, rfl, rfl, rfl, rfl, rfl, rfl, rfl, rfl, rfl, rfl, rfl, rfl, rfl, rfl, rfl, rfl, rfl, rfl, rfl, rfl⟩

/-- What `decodeStat` leaves alone. -/
@[simp] theorem State.decodeStat_unchanged :
    s.decodeStat.inst = s.inst ∧ s.decodeStat.op = s.op ∧ s.decodeStat.argClass = s.argClass ∧
    s.decodeStat.argId = s.argId ∧ s.decodeStat.argPlen = s.argPlen ∧ s.decodeStat.argCap = s.argCap ∧
    s.decodeStat.argTimeout = s.argTimeout ∧ s.decodeStat.argTmpl = s.argTmpl ∧ s.decodeStat.status = s.status ∧
    s.decodeStat.resultLen = s.resultLen ∧ s.decodeStat.frameLen = s.frameLen ∧ s.decodeStat.acqStatus = s.acqStatus ∧
    s.decodeStat.cfgStatus = s.cfgStatus ∧ s.decodeStat.variant = s.variant ∧ s.decodeStat.curOp = s.curOp ∧
    s.decodeStat.phase = s.phase ∧ s.decodeStat.kIdx = s.kIdx ∧ s.decodeStat.ackPos = s.ackPos ∧
    s.decodeStat.ackBranch = s.ackBranch ∧ s.decodeStat.dmx = s.dmx ∧ s.decodeStat.t0 = s.t0 ∧
    s.decodeStat.deadline = s.deadline ∧ s.decodeStat.accOk = s.accOk ∧ s.decodeStat.accCap = s.accCap ∧
    s.decodeStat.attMask = s.attMask ∧ s.decodeStat.okMask = s.okMask ∧ s.decodeStat.waiting = s.waiting ∧
    s.decodeStat.asleep = s.asleep ∧ s.decodeStat.txp = s.txp ∧ s.decodeStat.frame = s.frame ∧
    s.decodeStat.resp = s.resp ∧ s.decodeStat.now = s.now ∧ s.decodeStat.rx = s.rx ∧
    s.decodeStat.tx = s.tx ∧ s.decodeStat.sleeps = s.sleeps ∧ s.decodeStat.program = s.program ∧
    s.decodeStat.schedule = s.schedule ∧ s.decodeStat.reads = s.reads ∧ s.decodeStat.draws = s.draws := by
  refine ⟨rfl, rfl, rfl, rfl, rfl, rfl, rfl, rfl, rfl, rfl, rfl, rfl, rfl, rfl, rfl, rfl, rfl, rfl, rfl, rfl, rfl, rfl, rfl, rfl, rfl, rfl, rfl, rfl, rfl, rfl, rfl, rfl, rfl, rfl, rfl, rfl, rfl, rfl, rfl⟩

/-- What `decodeTime` leaves alone. -/
@[simp] theorem State.decodeTime_unchanged :
    s.decodeTime.inst = s.inst ∧ s.decodeTime.op = s.op ∧ s.decodeTime.argClass = s.argClass ∧
    s.decodeTime.argId = s.argId ∧ s.decodeTime.argPlen = s.argPlen ∧ s.decodeTime.argCap = s.argCap ∧
    s.decodeTime.argTimeout = s.argTimeout ∧ s.decodeTime.argTmpl = s.argTmpl ∧ s.decodeTime.status = s.status ∧
    s.decodeTime.resultLen = s.resultLen ∧ s.decodeTime.frameLen = s.frameLen ∧ s.decodeTime.acqStatus = s.acqStatus ∧
    s.decodeTime.cfgStatus = s.cfgStatus ∧ s.decodeTime.variant = s.variant ∧ s.decodeTime.curOp = s.curOp ∧
    s.decodeTime.phase = s.phase ∧ s.decodeTime.kIdx = s.kIdx ∧ s.decodeTime.ackPos = s.ackPos ∧
    s.decodeTime.ackBranch = s.ackBranch ∧ s.decodeTime.dmx = s.dmx ∧ s.decodeTime.t0 = s.t0 ∧
    s.decodeTime.deadline = s.deadline ∧ s.decodeTime.accOk = s.accOk ∧ s.decodeTime.accCap = s.accCap ∧
    s.decodeTime.attMask = s.attMask ∧ s.decodeTime.okMask = s.okMask ∧ s.decodeTime.waiting = s.waiting ∧
    s.decodeTime.asleep = s.asleep ∧ s.decodeTime.txp = s.txp ∧ s.decodeTime.frame = s.frame ∧
    s.decodeTime.resp = s.resp ∧ s.decodeTime.now = s.now ∧ s.decodeTime.rx = s.rx ∧
    s.decodeTime.tx = s.tx ∧ s.decodeTime.sleeps = s.sleeps ∧ s.decodeTime.program = s.program ∧
    s.decodeTime.schedule = s.schedule ∧ s.decodeTime.reads = s.reads ∧ s.decodeTime.draws = s.draws := by
  refine ⟨rfl, rfl, rfl, rfl, rfl, rfl, rfl, rfl, rfl, rfl, rfl, rfl, rfl, rfl, rfl, rfl, rfl, rfl, rfl, rfl, rfl, rfl, rfl, rfl, rfl, rfl, rfl, rfl, rfl, rfl, rfl, rfl, rfl, rfl, rfl, rfl, rfl, rfl, rfl⟩

/-- What `cfgAccumulate` leaves alone. -/
@[simp] theorem cfgAccumulate_unchanged (a : Bool) :
    (cfgAccumulate s a).inst = s.inst ∧ (cfgAccumulate s a).op = s.op ∧ (cfgAccumulate s a).argClass = s.argClass ∧
    (cfgAccumulate s a).argId = s.argId ∧ (cfgAccumulate s a).argPlen = s.argPlen ∧ (cfgAccumulate s a).argCap = s.argCap ∧
    (cfgAccumulate s a).argTimeout = s.argTimeout ∧ (cfgAccumulate s a).argTmpl = s.argTmpl ∧ (cfgAccumulate s a).status = s.status ∧
    (cfgAccumulate s a).resultLen = s.resultLen ∧ (cfgAccumulate s a).frameLen = s.frameLen ∧ (cfgAccumulate s a).acqStatus = s.acqStatus ∧
    (cfgAccumulate s a).cfgStatus = s.cfgStatus ∧ (cfgAccumulate s a).variant = s.variant ∧ (cfgAccumulate s a).fixReg = s.fixReg ∧
    (cfgAccumulate s a).curOp = s.curOp ∧ (cfgAccumulate s a).phase = s.phase ∧ (cfgAccumulate s a).kIdx = s.kIdx ∧
    (cfgAccumulate s a).ackPos = s.ackPos ∧ (cfgAccumulate s a).ackBranch = s.ackBranch ∧ (cfgAccumulate s a).dmx = s.dmx ∧
    (cfgAccumulate s a).t0 = s.t0 ∧ (cfgAccumulate s a).deadline = s.deadline ∧ (cfgAccumulate s a).accCap = s.accCap ∧
    (cfgAccumulate s a).waiting = s.waiting ∧ (cfgAccumulate s a).asleep = s.asleep ∧ (cfgAccumulate s a).txp = s.txp ∧
    (cfgAccumulate s a).frame = s.frame ∧ (cfgAccumulate s a).resp = s.resp ∧ (cfgAccumulate s a).now = s.now ∧
    (cfgAccumulate s a).rx = s.rx ∧ (cfgAccumulate s a).tx = s.tx ∧ (cfgAccumulate s a).sleeps = s.sleeps ∧
    (cfgAccumulate s a).program = s.program ∧ (cfgAccumulate s a).schedule = s.schedule ∧ (cfgAccumulate s a).reads = s.reads ∧
    (cfgAccumulate s a).draws = s.draws := by
  refine ⟨rfl, rfl, rfl, rfl, rfl, rfl, rfl, rfl, rfl, rfl, rfl, rfl, rfl, rfl, rfl, rfl, rfl, rfl, rfl, rfl, rfl, rfl, rfl, rfl, rfl, rfl, rfl, rfl, rfl, rfl, rfl, rfl, rfl, rfl, rfl, rfl, rfl⟩

/-- What `cfgAccumulate` writes. -/
@[simp] theorem cfgAccumulate_writes (a : Bool) :
    (cfgAccumulate s a).attMask = setMaskBit s.attMask s.kIdx true ∧
    (cfgAccumulate s a).okMask = setMaskBit s.okMask s.kIdx a ∧
    (cfgAccumulate s a).accOk = (s.accOk && a) :=
  ⟨rfl, rfl, rfl⟩

/-- Everything the end of a template's ACK wait can do (44_config_sequence.md R192): the sequence goes on with the
next template, STATUS untouched, or is over. -/
theorem cfgRecord_cases (a : Bool) :
    (∃ k, nextTemplate s.par s.variant (s.kIdx + 1) = some k ∧
      cfgRecord s a = { cfgAccumulate s a with kIdx := k, phase := 3 * k }) ∨
    (nextTemplate s.par s.variant (s.kIdx + 1) = none ∧
      cfgRecord s a = cfgFinish ((cfgAccumulate s a).setAcked a)) := by
  unfold cfgRecord
  cases h : nextTemplate s.par s.variant (s.kIdx + 1) with
  | some k => exact .inl ⟨k, rfl, rfl⟩
  | none => exact .inr ⟨rfl, rfl⟩

/-- What a reset leaves alone (70_reset_and_hazards.md R232). -/
@[simp] theorem State.assertReset_unchanged :
    s.assertReset.inst = s.inst ∧
    s.assertReset.now = s.now ∧
    s.assertReset.rx = s.rx ∧
    s.assertReset.tx = s.tx ∧
    s.assertReset.sleeps = s.sleeps ∧
    s.assertReset.program = s.program ∧
    s.assertReset.schedule = s.schedule ∧
    s.assertReset.reads = s.reads ∧
    s.assertReset.draws = s.draws :=
  ⟨rfl, rfl, rfl, rfl, rfl, rfl, rfl, rfl, rfl⟩

/-- What a reset writes (10_state.md R41). -/
@[simp] theorem State.assertReset_writes :
    s.assertReset.op = 0 ∧
    s.assertReset.argClass = 0 ∧
    s.assertReset.argId = 0 ∧
    s.assertReset.argPlen = 0 ∧
    s.assertReset.argCap = 0 ∧
    s.assertReset.argTimeout = 0 ∧
    s.assertReset.argTmpl = 0 ∧
    s.assertReset.status = Status.reset ∧
    s.assertReset.resultLen = 0 ∧
    s.assertReset.frameLen = 0 ∧
    s.assertReset.variant = s.par.variant ∧
    s.assertReset.fixReg = FixRecord.reset ∧
    s.assertReset.curOp = 0 ∧
    s.assertReset.phase = 0 ∧
    s.assertReset.kIdx = 0 ∧
    s.assertReset.ackPos = 0 ∧
    s.assertReset.ackBranch = false ∧
    s.assertReset.dmx = Dmx.reset ∧
    s.assertReset.t0 = 0 ∧
    s.assertReset.deadline = 0 ∧
    s.assertReset.accOk = false ∧
    s.assertReset.accCap = false ∧
    s.assertReset.attMask = 0 ∧
    s.assertReset.okMask = 0 ∧
    s.assertReset.waiting = false ∧
    s.assertReset.asleep = none ∧
    s.assertReset.txp = [] ∧
    s.assertReset.frame = [] ∧
    s.assertReset.resp = [] ∧
    s.assertReset.acqStatus = { success := false, p0Ok := false, p1Ok := false, p2Ok := false } ∧
    s.assertReset.cfgStatus = { cfgOk := false, attempted := 0, stepOk := 0 } := by
  refine ⟨rfl, rfl, rfl, rfl, rfl, rfl, rfl, rfl, rfl, rfl, rfl, rfl, rfl, rfl, rfl, rfl, rfl, rfl, rfl, rfl, rfl, rfl, rfl, rfl, rfl, rfl, rfl, rfl, rfl, rfl, rfl⟩

end Sys2Proof.Machine
end

