-- ==== Sys2Proof/Laws/Step.lean ====
section
/-! SUPPORT. What one step can be, said once: the move of the schedule, or the engine's or the host's after a
free draw; and what the host's move can be. -/

namespace Sys2Proof.Machine

/-- A step makes the schedule's first move, or with an empty schedule the engine's or the host's. -/
theorem step_cases (s : State) :
    (∃ m rest, s.schedule = m :: rest ∧ step s = runMove m { s with schedule := rest }) ∨
    (s.schedule = [] ∧ step s = if s.status.busy then exec (decodeOp s.curOp) s.freeDraw else hostMove s.freeDraw) := by
  unfold step
  cases h : s.schedule with
  | cons m rest => exact .inl ⟨m, rest, rfl, rfl⟩
  | nil =>
    refine .inr ⟨rfl, ?_⟩
    cases hb : s.status.busy <;> simp [runUnscheduled, engineMove, State.currentInstr, hb]

/-- The engine's move while an operation runs. -/
theorem engineMove_busy {s : State} (h : s.status.busy = true) : engineMove s = exec (decodeOp s.curOp) s := by
  simp [engineMove, State.currentInstr, h]

/-- The engine's move while idle. -/
theorem engineMove_idle {s : State} (h : s.status.busy = false) : engineMove s = .next s := by
  simp [engineMove, h]

/-- The receiver's move appends the bytes it is given, whatever they are. -/
theorem receiverMove_rx {s t : State} {bs : List Byte} (h : receiverMove bs s = .next t) :
    ∃ arrived, t = { s with rx := s.rx ++ arrived } := by
  unfold receiverMove State.arrivingInstr at h
  split at h
  · rename_i i hi
    simp only [decode, decodeWire] at hi
    split at hi
    · split at hi
      · simp at hi
      · split at hi
        · simp at hi
        · split at hi
          · simp at hi
          · simp only [Bool.false_eq_true, if_false, decodeReceivedBody] at hi
            split at hi
            · split at hi
              · simp only [Except.ok.injEq] at hi
                subst hi
                split at h
                · simp only [exec, execAck, Host.Outcome.next.injEq] at h
                  exact ⟨_, h.symm⟩
                · simp only [exec, execNak, Host.Outcome.next.injEq] at h
                  exact ⟨_, h.symm⟩
              · simp at hi
            · split at hi
              · simp only [Except.ok.injEq] at hi
                subst hi
                simp only [exec, execFrame, Host.Outcome.next.injEq] at h
                exact ⟨_, h.symm⟩
              · simp at hi
    · simp at hi
  · simp only [Host.Outcome.next.injEq] at h
    exact ⟨bs, h.symm⟩

/-- The host's move with a program that passes the check of R206: its first access. -/
theorem hostMove_cons {s : State} {a : Access} {rest : List Access} (hp : s.program = a :: rest)
    (hadm : programAdmitted s.par s.variant s.argClass s.argId s.program = true) :
    hostMove s = hostAccess a { s with program := rest } := by
  unfold hostMove
  rw [if_pos hadm, hp]

/-- Everything the host's move can do if it answers a next state. -/
theorem hostMove_cases {s t : State} (h : hostMove s = .next t) :
    (s.program = [] ∧ t = s) ∨
    (∃ rest r, t = State.record { s with program := rest } r) ∨
    (∃ rest, t = State.record { s with program := .wait :: rest } (.reg statusIndex s.status.word)) ∨
    (s.status.busy = false ∧ ∃ rest index w, s.program = .writeReg index w :: rest ∧
      State.regWrite { s with program := rest } index w = some t) ∨
    (s.status.busy = false ∧ ∃ rest i v, s.program = .writeBuf .txp i v :: rest ∧ i < s.par.txpSize ∧
      t = { s with program := rest, txp := Memory.write s.txp i v }) ∨
    (s.status.busy = false ∧ ∃ rest i v, s.program = .writeBuf .resp i v :: rest ∧ i < s.par.respSize ∧
      t = { s with program := rest, resp := Memory.write s.resp i v }) := by
  unfold hostMove at h
  split at h
  · cases hp : s.program with
    | nil => rw [hp] at h; simp only [Host.Outcome.next.injEq] at h; exact .inl ⟨rfl, h.symm⟩
    | cons a rest =>
      rw [hp] at h
      cases a with
      | readReg index =>
        simp only [hostAccess, hostReadReg] at h
        split at h
        · simp at h
        · split at h
          · simp only [Host.Outcome.next.injEq] at h; exact .inr (.inl ⟨rest, _, h.symm⟩)
          · simp at h
      | writeReg index w =>
        simp only [hostAccess, hostWriteReg] at h
        split at h
        · simp at h
        · rename_i hb
          split at h
          · rename_i s' hs'
            simp only [Host.Outcome.next.injEq] at h
            subst h
            exact .inr (.inr (.inr (.inl ⟨by simpa using hb, rest, index, w, rfl, hs'⟩)))
          · simp at h
      | readBuf b i =>
        simp only [hostAccess, hostReadBuf] at h
        split at h
        · simp at h
        · split at h
          · simp only [Host.Outcome.next.injEq] at h; exact .inr (.inl ⟨rest, _, h.symm⟩)
          · simp at h
      | writeBuf b i v =>
        simp only [hostAccess, hostWriteBuf] at h
        split at h
        · simp at h
        · rename_i hb
          have hb' : s.status.busy = false := by simpa using hb
          split at h
          · rename_i hi
            cases b with
            | txp =>
              simp only [Host.Outcome.next.injEq] at h
              exact .inr (.inr (.inr (.inr (.inl ⟨hb', rest, i, v, rfl, hi, h.symm⟩))))
            | frame => simp at h
            | resp =>
              simp only [Host.Outcome.next.injEq] at h
              exact .inr (.inr (.inr (.inr (.inr ⟨hb', rest, i, v, rfl, hi, h.symm⟩))))
          · simp at h
      | wait =>
        simp only [hostAccess, Host.Outcome.next.injEq, hostWait] at h
        split at h
        · exact .inr (.inl ⟨rest, _, h.symm⟩)
        · exact .inr (.inr (.inl ⟨rest, h.symm⟩))
  · simp at h

/-- Everything a host register write can do (10_state.md R20, R28). -/
theorem regWrite_cases {s t : State} {index : BitVec 5} {w : Word} (h : s.regWrite index w = some t) :
    t = s.issue (w.setWidth 8) ∨ t = s ∨
    (∃ c i pl cap tm tmpl, t = { s with argClass := c, argId := i, argPlen := pl, argCap := cap,
                                        argTimeout := tm, argTmpl := tmpl }) := by
  unfold State.regWrite at h
  split at h
  · simp only [Option.some.injEq] at h; exact .inl h.symm
  · simp only [Option.some.injEq] at h; exact .inr (.inr ⟨_, _, _, _, _, _, h.symm⟩)
  · simp only [Option.some.injEq] at h; exact .inr (.inr ⟨_, _, _, _, _, _, h.symm⟩)
  · simp only [Option.some.injEq] at h; exact .inr (.inr ⟨_, _, _, _, _, _, h.symm⟩)
  · simp only [Option.some.injEq] at h; exact .inr (.inr ⟨_, _, _, _, _, _, h.symm⟩)
  · simp only [Option.some.injEq] at h; exact .inr (.inr ⟨_, _, _, _, _, _, h.symm⟩)
  · simp only [Option.some.injEq] at h; exact .inr (.inr ⟨_, _, _, _, _, _, h.symm⟩)
  · split at h
    · simp only [Option.some.injEq] at h; exact .inr (.inl h.symm)
    · simp at h

/-- One more step of a run whose first step goes on. -/
theorem run_succ_of_next {s t : State} (n : Nat) (h : step s = .next t) :
    Host.Core.run core (n + 1) s = Host.Core.run core n t := by
  have h' : core.step s = .next t := h
  simp [Host.Core.run, h']

end Sys2Proof.Machine
end

