-- ==== Sys2Proof/Laws/Waits.lean ====
section
/-! SUPPORT. What one engine step of a wait can do, said once for each of the two waits, and what one byte
can do to each byte-matching machine. -/

namespace Sys2Proof.Machine

/-- One byte into the matcher: it is dropped, or it is accepted and the template is not complete, or it
completes the template. -/
theorem ackStep_cases (p : Params) (c i : Byte) (pos : Fin 8) (br : Bool) (b : Byte) :
    (b ≠ (ackTemplate p c i).get pos ∧ b ≠ (nakTemplate p c i).get pos ∧
      ackStep p c i pos br b = { pos := 0, branch := br, result := none }) ∨
    ((b = (ackTemplate p c i).get pos ∨ b = (nakTemplate p c i).get pos) ∧ pos ≠ 7 ∧
      ackStep p c i pos br b =
        { pos := pos + 1, branch := if pos = 3 then decide (b = p.ackMark) else br, result := none }) ∨
    (pos = 7 ∧ b = i ∧ ackStep p c i pos br b = { pos := 0, branch := br, result := some br }) := by
  by_cases hm : b = (ackTemplate p c i).get pos ∨ b = (nakTemplate p c i).get pos
  · by_cases h7 : pos = 7
    · subst h7
      have hi : b = i := by rcases hm with h | h <;> exact h
      exact .inr (.inr ⟨rfl, hi, by simp only [ackStep, if_pos hm]; simp⟩)
    · refine .inr (.inl ⟨hm, h7, ?_⟩)
      simp only [ackStep, if_pos hm, if_neg h7]
      rfl
  · exact .inl ⟨fun h => hm (.inl h), fun h => hm (.inr h), by simp [ackStep, hm]⟩

/-- Everything one engine step of an ACK wait can do (41_ack_matcher.md R112). -/
theorem ackWait_cases {s s' : State} {c i : Byte} {r : Option Bool} (h : s.ackWait c i = (s', r)) :
    (s.waiting = false ∧ s' = s.ackBegin ∧ r = none) ∨
    (s.waiting = true ∧ s.deadline < s.now ∧ s' = { s.wake with waiting := false } ∧ r = some false) ∨
    (s.waiting = true ∧ s.now ≤ s.deadline ∧ s.rx = [] ∧ s' = s.wake.sleep s.par.pollSleepAckMs ∧ r = none) ∨
    (s.waiting = true ∧ s.now ≤ s.deadline ∧ ∃ b rest, s.rx = b :: rest ∧
      r = (ackStep s.par c i s.ackPos s.ackBranch b).result ∧
      s' = { s.wake with
              rx := rest
              ackPos := (ackStep s.par c i s.ackPos s.ackBranch b).pos
              ackBranch := (ackStep s.par c i s.ackPos s.ackBranch b).branch
              waiting := r.isNone }) := by
  unfold State.ackWait at h
  by_cases hw : s.waiting = true
  · rw [if_pos hw] at h
    by_cases hd : s.deadline < s.now
    · have hi : s.ackIter c i = (s.wake, some false) := by simp [State.ackIter, hd]
      rw [hi] at h
      simp only [Prod.mk.injEq] at h
      exact .inr (.inl ⟨hw, hd, h.1.symm, h.2.symm⟩)
    · cases hrx : s.rx with
      | nil =>
        have hi : s.ackIter c i = (s.wake.sleep s.par.pollSleepAckMs, none) := by
          simp [State.ackIter, hd, hrx, State.par]
        rw [hi] at h
        simp only [Prod.mk.injEq] at h
        exact .inr (.inr (.inl ⟨hw, by omega, rfl, h.1.symm, h.2.symm⟩))
      | cons b rest =>
        have hi : s.ackIter c i = State.ackByte { s.wake with rx := rest } c i b := by
          simp [State.ackIter, hd, hrx]
        rw [hi] at h
        refine .inr (.inr (.inr ⟨hw, by omega, b, rest, rfl, ?_⟩))
        simp only [State.ackByte] at h
        cases hr : (ackStep s.par c i s.ackPos s.ackBranch b).result with
        | none =>
          have hr' : (ackStep ({ s.wake with rx := rest } : State).par c i
            ({ s.wake with rx := rest } : State).ackPos ({ s.wake with rx := rest } : State).ackBranch b).result = none := hr
          simp only [hr', Prod.mk.injEq] at h
          refine ⟨h.2.symm, ?_⟩
          rw [← h.1, ← h.2]
          simp [State.wake, hw]
        | some a =>
          have hr' : (ackStep ({ s.wake with rx := rest } : State).par c i
            ({ s.wake with rx := rest } : State).ackPos ({ s.wake with rx := rest } : State).ackBranch b).result = some a := hr
          simp only [hr', Prod.mk.injEq] at h
          refine ⟨h.2.symm, ?_⟩
          rw [← h.1, ← h.2]
          simp [State.wake]
  · simp only [if_neg hw, Prod.mk.injEq] at h
    exact .inl ⟨by simpa using hw, h.1.symm, h.2.symm⟩

/-- Everything one engine step of a receive can do, if it does not stop with a fault
(42_payload_demux.md R131). -/
theorem recvWait_cases {s s' : State} {c i : Byte} {cap : Half} {r : Option RecvResult}
    (h : s.recvWait c i cap = .ok (s', r)) :
    (s.waiting = false ∧ s' = s.recvBegin ∧ r = none) ∨
    (s.waiting = true ∧ s.deadline < s.now ∧ s' = { s.wake with waiting := false } ∧ r = some .timeout) ∨
    (s.waiting = true ∧ s.now ≤ s.deadline ∧ s.rx = [] ∧ s' = s.wake.sleep s.par.pollSleepDmxMs ∧ r = none) ∨
    (s.waiting = true ∧ s.now ≤ s.deadline ∧ ∃ b rest, s.rx = b :: rest ∧
      r = (dmxStep s.par.verifyRxChecksum c i cap s.dmx b).result ∧
      (∀ k, (dmxStep s.par.verifyRxChecksum c i cap s.dmx b).store = some k → k < bufferSize s.par .resp) ∧
      s' = { s.wake with
              rx := rest
              dmx := (dmxStep s.par.verifyRxChecksum c i cap s.dmx b).next
              resp := match (dmxStep s.par.verifyRxChecksum c i cap s.dmx b).store with
                | some k => Memory.write s.resp k b
                | none => s.resp
              waiting := r.isNone }) := by
  unfold State.recvWait at h
  by_cases hw : s.waiting = true
  · rw [if_pos hw] at h
    by_cases hd : s.deadline < s.now
    · have hi : s.recvIter c i cap = .ok (s.wake, some .timeout) := by simp [State.recvIter, hd]
      rw [hi] at h
      simp only [Except.ok.injEq, Prod.mk.injEq] at h
      exact .inr (.inl ⟨hw, hd, h.1.symm, h.2.symm⟩)
    · cases hrx : s.rx with
      | nil =>
        have hi : s.recvIter c i cap = .ok (s.wake.sleep s.par.pollSleepDmxMs, none) := by
          simp [State.recvIter, hd, hrx, State.par]
        rw [hi] at h
        simp only [Except.ok.injEq, Prod.mk.injEq] at h
        exact .inr (.inr (.inl ⟨hw, by omega, rfl, h.1.symm, h.2.symm⟩))
      | cons b rest =>
        refine .inr (.inr (.inr ⟨hw, by omega, b, rest, rfl, ?_⟩))
        have hi : s.recvIter c i cap = State.recvByte { s.wake with rx := rest } c i cap b := by
          simp [State.recvIter, hd, hrx]
        rw [hi] at h
        have hb : State.recvByte { s.wake with rx := rest } c i cap b =
            match (dmxStep s.par.verifyRxChecksum c i cap s.dmx b).store with
            | none => .ok ({ s.wake with
                              rx := rest, dmx := (dmxStep s.par.verifyRxChecksum c i cap s.dmx b).next },
                            (dmxStep s.par.verifyRxChecksum c i cap s.dmx b).result)
            | some k =>
              if k < bufferSize s.par .resp then
                .ok ({ s.wake with
                        rx := rest, resp := Memory.write s.resp k b
                        dmx := (dmxStep s.par.verifyRxChecksum c i cap s.dmx b).next },
                      (dmxStep s.par.verifyRxChecksum c i cap s.dmx b).result)
              else .error (.indexOutside k (bufferSize s.par .resp)) := by
          unfold State.recvByte
          cases hst : (dmxStep s.par.verifyRxChecksum c i cap s.dmx b).store with
          | none => simp [State.wake, hst]
          | some k =>
            by_cases hk : k < bufferSize s.par .resp
            · simp [State.wake, hst, State.storeResp, hk]
            · simp [State.wake, hst, State.storeResp, hk]
        rw [hb] at h
        cases hst : (dmxStep s.par.verifyRxChecksum c i cap s.dmx b).store with
        | none =>
          simp only [hst] at h
          cases hr : (dmxStep s.par.verifyRxChecksum c i cap s.dmx b).result with
          | none =>
            simp only [hr, Except.ok.injEq, Prod.mk.injEq] at h
            refine ⟨h.2.symm, by simp, ?_⟩
            rw [← h.1, ← h.2]
            simp [State.wake, hw]
          | some a =>
            simp only [hr, Except.ok.injEq, Prod.mk.injEq] at h
            refine ⟨h.2.symm, by simp, ?_⟩
            rw [← h.1, ← h.2]
            simp [State.wake]
        | some k =>
          simp only [hst] at h
          by_cases hk : k < bufferSize s.par .resp
          · rw [if_pos hk] at h
            cases hr : (dmxStep s.par.verifyRxChecksum c i cap s.dmx b).result with
            | none =>
              simp only [hr, Except.ok.injEq, Prod.mk.injEq] at h
              refine ⟨h.2.symm, by simpa using hk, ?_⟩
              rw [← h.1, ← h.2]
              simp [State.wake, hw]
            | some a =>
              simp only [hr, Except.ok.injEq, Prod.mk.injEq] at h
              refine ⟨h.2.symm, by simpa using hk, ?_⟩
              rw [← h.1, ← h.2]
              simp [State.wake]
          · simp [hk] at h
  · simp only [if_neg hw, Except.ok.injEq, Prod.mk.injEq] at h
    exact .inl ⟨by simpa using hw, h.1.symm, h.2.symm⟩

/-- A receive stops with a fault only on a payload byte whose index is past RESP. -/
theorem recvWait_error {s : State} {c i : Byte} {cap : Half} {f : Fault} (h : s.recvWait c i cap = .error f) :
    s.waiting = true ∧ s.dmx.st = .payload ∧ bufferSize s.par .resp ≤ s.dmx.cnt.toNat := by
  unfold State.recvWait at h
  by_cases hw : s.waiting = true
  · rw [if_pos hw] at h
    refine ⟨hw, ?_⟩
    split at h
    · simp at h
    · simp at h
    · rename_i f' hi
      unfold State.recvIter at hi
      simp only at hi
      split at hi
      · simp at hi
      · split at hi
        · simp at hi
        · rename_i b rest hrx
          unfold State.recvByte at hi
          simp only at hi
          split at hi
          · simp at hi
          · rename_i k hk
            have hk' : (dmxStep s.par.verifyRxChecksum c i cap s.dmx b).store = some k := hk
            have hst : s.dmx.st = .payload ∧ k = s.dmx.cnt.toNat := by
              revert hk'
              unfold dmxStep
              cases hs : s.dmx.st <;>
                simp only [dmxGo, dmxLenHi, dmxPayload] <;> (repeat' split) <;> simp_all
            refine ⟨hst.1, ?_⟩
            by_contra hlt
            have hlt' : k < bufferSize s.par .resp := by rw [hst.2]; omega
            have : ({ s.wake with rx := rest } : State).storeResp k b =
                .ok { ({ s.wake with rx := rest } : State) with resp := Memory.write s.resp k b } := by
              simp only [State.storeResp]
              exact if_pos hlt'
            rw [this] at hi
            simp at hi
  · simp [hw] at h

/-- A byte is copied to RESP only in the PAYLOAD state, at DMX_CNT (42_payload_demux.md R132, R143). -/
theorem dmxStep_store {v : Bool} {c i : Byte} {cap : Half} {d : Dmx} {b : Byte} {k : Nat}
    (h : (dmxStep v c i cap d b).store = some k) : d.st = .payload ∧ k = d.cnt.toNat := by
  revert h
  unfold dmxStep
  cases hs : d.st <;> simp only [dmxGo, dmxLenHi, dmxPayload] <;> (repeat' split) <;> simp_all

/-- A receive that is not over takes a byte that is not copied. -/
theorem recvWait_byte {s : State} {c i : Byte} {cap : Half} {b : Byte} {rest : List Byte} (hw : s.waiting = true)
    (hd : s.now ≤ s.deadline) (hrx : s.rx = b :: rest)
    (hst : (dmxStep s.par.verifyRxChecksum c i cap s.dmx b).store = none) :
    s.recvWait c i cap = .ok
      ({ s with
          rx := rest, asleep := none, dmx := (dmxStep s.par.verifyRxChecksum c i cap s.dmx b).next
          waiting := (dmxStep s.par.verifyRxChecksum c i cap s.dmx b).result.isNone },
        (dmxStep s.par.verifyRxChecksum c i cap s.dmx b).result) := by
  have hi : s.recvIter c i cap = .ok
      ({ s with
          rx := rest, asleep := none, dmx := (dmxStep s.par.verifyRxChecksum c i cap s.dmx b).next },
        (dmxStep s.par.verifyRxChecksum c i cap s.dmx b).result) := by
    simp [State.recvIter, State.wake, Nat.not_lt.2 hd, hrx, State.recvByte, hst]
  unfold State.recvWait
  rw [if_pos hw, hi]
  cases (dmxStep s.par.verifyRxChecksum c i cap s.dmx b).result <;> simp [hw]

/-- A receive that is not over takes a byte that is copied to RESP. -/
theorem recvWait_copy {s : State} {c i : Byte} {cap : Half} {b : Byte} {rest : List Byte} {k : Nat}
    (hw : s.waiting = true) (hd : s.now ≤ s.deadline) (hrx : s.rx = b :: rest)
    (hst : (dmxStep s.par.verifyRxChecksum c i cap s.dmx b).store = some k) (hk : k < s.par.respSize) :
    s.recvWait c i cap = .ok
      ({ s with
          rx := rest, asleep := none, dmx := (dmxStep s.par.verifyRxChecksum c i cap s.dmx b).next
          resp := Memory.write s.resp k b
          waiting := (dmxStep s.par.verifyRxChecksum c i cap s.dmx b).result.isNone },
        (dmxStep s.par.verifyRxChecksum c i cap s.dmx b).result) := by
  have hi : s.recvIter c i cap = .ok
      ({ s with
          rx := rest, asleep := none, dmx := (dmxStep s.par.verifyRxChecksum c i cap s.dmx b).next
          resp := Memory.write s.resp k b },
        (dmxStep s.par.verifyRxChecksum c i cap s.dmx b).result) := by
    simp [State.recvIter, State.wake, Nat.not_lt.2 hd, hrx, State.recvByte, hst, State.storeResp, bufferSize, hk]
  unfold State.recvWait
  rw [if_pos hw, hi]
  cases (dmxStep s.par.verifyRxChecksum c i cap s.dmx b).result <;> simp [hw]

/-- A receive past its deadline (42_payload_demux.md R137). -/
theorem recvWait_late {s : State} {c i : Byte} {cap : Half} (hw : s.waiting = true) (hd : s.deadline < s.now) :
    s.recvWait c i cap = .ok ({ s with asleep := none, waiting := false }, some .timeout) := by
  simp [State.recvWait, hw, State.recvIter, State.wake, hd]

/-- An ACK wait that is not over takes a byte. -/
theorem ackWait_byte {s : State} {c i b : Byte} {rest : List Byte} (hw : s.waiting = true) (hd : s.now ≤ s.deadline)
    (hrx : s.rx = b :: rest) :
    s.ackWait c i =
      ({ s with
          rx := rest, asleep := none, ackPos := (ackStep s.par c i s.ackPos s.ackBranch b).pos
          ackBranch := (ackStep s.par c i s.ackPos s.ackBranch b).branch
          waiting := (ackStep s.par c i s.ackPos s.ackBranch b).result.isNone },
        (ackStep s.par c i s.ackPos s.ackBranch b).result) := by
  have hi : s.ackIter c i =
      ({ s with
          rx := rest, asleep := none, ackPos := (ackStep s.par c i s.ackPos s.ackBranch b).pos
          ackBranch := (ackStep s.par c i s.ackPos s.ackBranch b).branch },
        (ackStep s.par c i s.ackPos s.ackBranch b).result) := by
    simp [State.ackIter, State.wake, Nat.not_lt.2 hd, hrx, State.ackByte]
  unfold State.ackWait
  rw [if_pos hw, hi]
  cases (ackStep s.par c i s.ackPos s.ackBranch b).result <;> simp [hw]

/-- An ACK wait past its deadline (41_ack_matcher.md R118). -/
theorem ackWait_late {s : State} {c i : Byte} (hw : s.waiting = true) (hd : s.deadline < s.now) :
    s.ackWait c i = ({ s with asleep := none, waiting := false }, some false) := by
  simp [State.ackWait, hw, State.ackIter, State.wake, hd]

end Sys2Proof.Machine
end

