-- ==== Sys2Proof/Tests/Slice0.lean ====
section
/-! SUPPORT. The model's own tests: the refusals of WellFormed, words written out from the spec's encodings,
one-step tests whose expected values are those of spec/95_test_vectors.md, and for each obligation with
hypotheses a state that meets them. -/

namespace Sys2Proof.Tests

open Sys2Proof.Machine

/-! ## Helpers: the instance of spec/95_test_vectors.md (rows 0 and 2.5), and looking at an outcome -/

/-- The parameters of the vectors: the defaults, the payloads of T-CFG. -/
def params (v : Variant) (verify : Bool) : Params :=
  { Config.defaults v (Config.defaultTemplates [0x00] [0x01] [0x02] [0x03]) with
    verifyRxChecksum := verify, satMin := 4, settleMs := 0, gpeBase := 0 }

theorem params_admissible (v : Variant) (verify : Bool) : (params v verify).admissible = true := by
  cases v <;> cases verify <;> rfl

/-- The instance of the vectors. -/
def device (v : Variant) (verify : Bool) : Instance := ⟨params v verify, params_admissible v verify⟩

/-- Its reset state. -/
def start (v : Variant) (verify : Bool) : State := State.resetOf (device v verify)

/-- The engine is in the middle of the operation v for (0x06, 0x11), its wait open. -/
def running (v : Byte) (variant : Variant) (verify : Bool) : State :=
  { start variant verify with
    op := v, curOp := v, argClass := 0x06, argId := 0x11, argCap := 92, argTimeout := 1000, waiting := true
    deadline := 1000, status := { busy := true, done := false, ok := false, err := .none, acked := false } }

/-- A field of the next state. -/
def look {α : Type} (o : Host.Outcome State Fault Refusal) (f : State → α) : Option α :=
  match o with
  | .next s => some (f s)
  | .fault _ => none
  | .refused _ => none

/-- An outcome is a refusal for this reason. -/
def refusedBy (o : Host.Outcome State Fault Refusal) (r : Refusal) : Bool :=
  match o with
  | .next _ => false
  | .fault _ => false
  | .refused r' => decide (r' = r)

/-! ## WellFormed: each check refuses an ill-formed term -/

theorem test_wf_refuses_a_defined_opcode_as_reserved :
    (Instr.reserved 0x01).wellFormed (params .gen2 false) = false := by decide

theorem test_wf_refuses_the_last_defined_opcode_as_reserved :
    (Instr.reserved 0x0C).wellFormed (params .gen2 false) = false := by decide

theorem test_wf_refuses_an_ack_shaped_frame :
    (Instr.frame 0x05 0x01 [0x06, 0x11] 0x1F 0x48).wellFormed (params .gen2 false) = false := by decide

theorem test_wf_refuses_a_payload_past_16_bits :
    (Instr.frame 0x01 0x02 (List.replicate 65536 0) 0 0).wellFormed (params .gen2 false) = false := by
  simp only [Instr.wellFormed, List.length_replicate]
  decide

theorem test_wf_refuses_a_short_ack : (Instr.ack 0x06 0x11 [0x1F]).wellFormed (params .gen2 false) = false := by
  decide

theorem test_wf_refuses_a_long_nak :
    (Instr.nak 0x06 0x11 [0x1E, 0x43, 0x00]).wellFormed (params .gen2 false) = false := by decide

/-! ## Decoding: words written out from 30_encoding.md R70, R74, R75, R77, R79 -/

theorem test_decode_encode : decode (params .gen2 false) .command [0x01] = .ok .encode := rfl
theorem test_decode_transmit : decode (params .gen2 false) .command [0x02] = .ok .transmit := rfl
theorem test_decode_send_cmd : decode (params .gen2 false) .command [0x03] = .ok .sendCmd := rfl
theorem test_decode_ack_wait : decode (params .gen2 false) .command [0x04] = .ok .ackWait := rfl
theorem test_decode_recv_payload : decode (params .gen2 false) .command [0x05] = .ok .recvPayload := rfl
theorem test_decode_poll : decode (params .gen2 false) .command [0x06] = .ok .poll := rfl
theorem test_decode_decode_pvt : decode (params .gen2 false) .command [0x07] = .ok .decodePvt := rfl
theorem test_decode_decode_pos : decode (params .gen2 false) .command [0x08] = .ok .decodePos := rfl
theorem test_decode_decode_stat : decode (params .gen2 false) .command [0x09] = .ok .decodeStat := rfl
theorem test_decode_decode_time : decode (params .gen2 false) .command [0x0A] = .ok .decodeTime := rfl
theorem test_decode_acquire_fix : decode (params .gen2 false) .command [0x0B] = .ok .acquireFix := rfl
theorem test_decode_cfg_seq : decode (params .gen2 false) .command [0x0C] = .ok .cfgSeq := rfl
theorem test_decode_reserved_low : decode (params .gen2 false) .command [0x00] = .ok (.reserved 0x00) := rfl
theorem test_decode_reserved_high : decode (params .gen2 false) .command [0xFF] = .ok (.reserved 0xFF) := rfl

/-- PosT4 of 95_test_vectors.md. -/
theorem test_decode_frame : decode (params .gen2 false) .received
    [0xB5, 0x62, 0x01, 0x02, 0x04, 0x00, 0x11, 0x22, 0x33, 0x44, 0xB1, 0x82] =
      .ok (.frame 0x01 0x02 [0x11, 0x22, 0x33, 0x44] 0xB1 0x82) := rfl

/-- AckF(06,11). -/
theorem test_decode_ack : decode (params .gen2 false) .received
    [0xB5, 0x62, 0x05, 0x01, 0x02, 0x00, 0x06, 0x11, 0x1F, 0x48] = .ok (.ack 0x06 0x11 [0x1F, 0x48]) := rfl

/-- NakF(06,11). -/
theorem test_decode_nak : decode (params .gen2 false) .received
    [0xB5, 0x62, 0x05, 0x00, 0x02, 0x00, 0x06, 0x11, 0x1E, 0x43] = .ok (.nak 0x06 0x11 [0x1E, 0x43]) := rfl

/-- The poll request of message C. -/
theorem test_decode_poll_request : decode (params .gen2 false) .sent
    [0xB5, 0x62, 0x01, 0x21, 0x00, 0x00, 0x22, 0x67] = .ok (.pollRequest 0x01 0x21) := rfl

theorem test_decode_refuses_a_bad_sync_byte : decode (params .gen2 false) .received
    [0xB5, 0x63, 0x01, 0x02, 0x00, 0x00, 0x03, 0x0A] = .error .badSync2 := rfl

theorem test_decode_refuses_a_wrong_length : decode (params .gen2 false) .received
    [0xB5, 0x62, 0x01, 0x02, 0x01, 0x00, 0x03, 0x0A] = .error .wrongLength := rfl

theorem test_decode_refuses_a_bad_poll_checksum : decode (params .gen2 false) .sent
    [0xB5, 0x62, 0x01, 0x21, 0x00, 0x00, 0x22, 0x68] = .error .badChecksum := rfl

theorem test_table_word_command : decodeTableWord 8 0x0B = some .acquireFix := rfl
theorem test_table_word_frame : decodeTableWord 16 0xB562 = some (.frame 0 0 [] 0 0) := rfl
theorem test_table_word_ack : decodeTableWord 48 0xB56205010200 = some (.ack 0 0 [0, 0]) := rfl
theorem test_table_word_nak : decodeTableWord 48 0xB56205000200 = some (.nak 0 0 [0, 0]) := rfl
theorem test_table_word_poll_request : decodeTableWord 48 0xB56200000000 = some (.pollRequest 0 0) := rfl

/-- The step after withFetchWord runs the word: TRANSMIT after reset is ILLEGAL (V-TX-2). -/
theorem test_fetch_word_runs_a_command :
    look (step (State.reset.withFetchWord 8 0x02)) (fun s => s.status.word) = some 0x032 := rfl

/-- The step after withFetchWord runs a wire word: the ACK's bytes are in the receive stream. -/
theorem test_fetch_word_runs_an_ack : look (step (State.reset.withFetchWord 48 0xB56205010200)) (fun s => s.rx) =
    some [0xB5, 0x62, 0x05, 0x01, 0x02, 0x00, 0x00, 0x00, 0x00, 0x00] := rfl

/-! ## One step of each instruction -/

/-- TXP = 08 00, for (0x06, 0x11), two payload bytes. -/
def toSend : State :=
  { running 0x01 .gen2 false with waiting := false, txp := [(0, 0x08)], argPlen := 2 }

/-- V-ENC-1. -/
theorem test_encode : look (exec .encode toSend) (fun s => (Memory.readRange s.frame 0 10, s.frameLen, s.status.word)) =
    some ([0xB5, 0x62, 0x06, 0x11, 0x02, 0x00, 0x08, 0x00, 0x21, 0x91], 10, 0x006) := by decide

/-- V-ENC-7. -/
theorem test_encode_bad_length : look (exec .encode { toSend with argPlen := 257 })
    (fun s => (s.frame, s.frameLen, s.status.word)) = some ([], 0, 0x032) := by decide

/-- FRAME after V-POLL-1. -/
def framed : State :=
  { toSend with frame := Memory.writeRange [] 0 [0xB5, 0x62, 0x01, 0x07, 0x00, 0x00, 0x08, 0x19], frameLen := 8 }

/-- V-TX-3. -/
theorem test_transmit : look (exec .transmit framed) (fun s => (s.tx, s.status.word)) =
    some ([[0xB5, 0x62, 0x01, 0x07, 0x00, 0x00, 0x08, 0x19]], 0x006) := by decide

/-- V-TX-2. -/
theorem test_transmit_without_frame : look (exec .transmit toSend) (fun s => (s.tx, s.status.word)) =
    some ([], 0x032) := by decide

/-- V-SEND-1, its last byte. -/
theorem test_send_cmd_acked :
    look (exec .sendCmd { running 0x03 .gen2 false with
      phase := 2, ackPos := 7, ackBranch := true, rx := [0x11, 0x1F, 0x48] })
      (fun s => (s.rx, s.status.word)) = some ([0x1F, 0x48], 0x106) := by decide

/-- V-SEND-3, its last iteration. -/
theorem test_send_cmd_silent :
    look (exec .sendCmd { running 0x03 .gen2 false with phase := 2, now := 1100 }) (fun s => s.status.word) =
      some 0x012 := by decide

/-- V-ACK-2, the byte that makes it a NAK. -/
theorem test_ack_wait_branch :
    look (exec .ackWait { running 0x04 .gen2 false with ackPos := 3, ackBranch := true, rx := [0x00] })
      (fun s => (s.ackPos, s.ackBranch, s.rx)) = some (4, false, []) := by decide

/-- V-ACK-4, the second B5. -/
theorem test_ack_wait_drops_the_breaking_byte :
    look (exec .ackWait { running 0x04 .gen2 false with ackPos := 1, rx := [0xB5, 0x62] })
      (fun s => (s.ackPos, s.rx)) = some (0, [0x62]) := by decide

/-- V-DMX-1, its last payload byte. -/
theorem test_recv_payload :
    look (exec .recvPayload { running 0x05 .gen2 false with
      dmx := { st := .payload, len := 4, cnt := 3, ckA := 0, ckB := 0 }
      resp := [(0, 0x11), (1, 0x22), (2, 0x33)], rx := [0x44, 0xB1, 0x82] })
      (fun s => (s.resultLen, Memory.readRange s.resp 0 5, s.rx, s.status.word)) =
        some (4, [0x11, 0x22, 0x33, 0x44, 0x00], [0xB1, 0x82], 0x006) := by decide

/-- V-DMX-3, the high length byte. -/
theorem test_recv_payload_capacity :
    look (exec .recvPayload { running 0x05 .gen2 false with
      argCap := 3, dmx := { st := .lenHi, len := 4, cnt := 0, ckA := 0, ckB := 0 }, rx := [0x00, 0x11] })
      (fun s => (s.resultLen, s.resp, s.rx, s.status.word)) = some (0, [], [0x11], 0x022) := by decide

/-- V-POLL-1, the request. -/
theorem test_poll_request_of_poll :
    look (exec .poll { running 0x06 .gen2 false with argClass := 0x01, argId := 0x07, waiting := false })
      (fun s => (s.tx, s.frameLen, s.phase)) = some ([[0xB5, 0x62, 0x01, 0x07, 0x00, 0x00, 0x08, 0x19]], 8, 2) := by
  decide

/-- V-DMX-4 in the receive of a POLL. -/
theorem test_poll_zero_length :
    look (exec .poll { running 0x06 .gen2 false with
      phase := 2, argCap := 0, dmx := { st := .lenHi, len := 0, cnt := 0, ckA := 0, ckB := 0 }, rx := [0x00, 0x03, 0x0A] })
      (fun s => (s.resultLen, s.rx, s.status.word)) = some (0, [0x03, 0x0A], 0x006) := by decide

/-- The bytes of V-DEC-1 that are not 0, from index 4 on. -/
def pvtPayload : Memory :=
  Memory.writeRange [] 4
    [0xE8, 0x07, 0x06, 0x15, 0x0C, 0x1E, 0x2D, 0x07, 0x00, 0x00, 0x00, 0x00, 0x00, 0x00, 0x00, 0x00,
     0x03, 0x01, 0x00, 0x09, 0x80, 0xE1, 0x12, 0x05, 0x4C, 0x52, 0x40, 0x1C, 0xF8, 0x21, 0xBD, 0x00,
     0xA8, 0x5E, 0xBC, 0x00]

/-- V-DEC-1 under GEN1 (V-DEC-9). -/
theorem test_decode_pvt :
    look (exec .decodePvt { start .gen1 false with resp := pvtPayload })
      (fun s => (s.fixReg.year, s.fixReg.second, s.fixReg.lat, s.fixReg.lon, s.fixReg.alt, s.fixReg.numSv,
        s.fixReg.fixType)) = some (2024, 45, 473977420, 85123456, 12345, 9, 3) := by decide

/-- V-DEC-5. -/
theorem test_decode_pvt_of_zeros : look (exec .decodePvt (start .gen2 false)) (fun s => s.fixReg) =
    some { FixRecord.reset with alt := 1 } := by decide

/-- V-DEC-2. -/
theorem test_decode_pos :
    look (exec .decodePos { start .gen2 false with resp := Memory.writeRange (Memory.writeRange [] 4
        [0x00, 0xE1, 0xF5, 0x05, 0x80, 0xF0, 0xFA, 0x02]) 16 [0xA7, 0x61, 0x00, 0x00] })
      (fun s => s.fixReg) = some { FixRecord.reset with lon := 100000000, lat := 50000000, alt := 24 } := by decide

/-- V-DEC-7. -/
theorem test_decode_pos_signed :
    look (exec .decodePos { start .gen2 false with
        resp := Memory.writeRange [] 4 [0xFF, 0xFF, 0xFF, 0x7F, 0x00, 0x00, 0x00, 0x80] })
      (fun s => (s.fixReg.lat.toInt, s.fixReg.lon.toInt)) = some (-2147483648, 2147483647) := by decide

/-- V-DEC-3. -/
theorem test_decode_stat :
    look (exec .decodeStat { start .gen2 false with resp := [(10, 0x03), (47, 0x09)] }) (fun s => s.fixReg) =
      some { FixRecord.reset with fixType := 3, numSv := 9 } := by decide

/-- V-DEC-4. -/
theorem test_decode_time :
    look (exec .decodeTime { start .gen2 false with
        resp := Memory.writeRange [] 12 [0xE8, 0x07, 0x06, 0x15, 0x0C, 0x1E, 0x2D] }) (fun s => s.fixReg) =
      some { FixRecord.reset with year := 2024, month := 6, day := 21, hour := 12, minute := 30, second := 45 } := by
  decide

/-- V-ACQ-3, the high length byte of 160: FIX_* unchanged. -/
theorem test_acquire_fix_capacity :
    look (exec .acquireFix { running 0x0B .gen2 false with
      phase := 2, dmx := { st := .lenHi, len := 160, cnt := 0, ckA := 0, ckB := 0 }, rx := [0x00, 0x01] })
      (fun s => (s.fixReg, s.acqStatus.word, s.rx, s.status.word)) =
        some (FixRecord.reset, 0x0, [0x01], 0x022) := by decide

/-- V-ACQ-5, the end of the first of three silent polls: the decode runs, message B is next. -/
theorem test_acquire_fix_gen1_goes_on :
    look (exec .acquireFix { running 0x0B .gen1 false with phase := 2, now := 1100, accOk := true })
      (fun s => (s.fixReg.alt, s.phase, s.accOk, s.status.busy)) = some (1, 3, false, true) := by decide

/-- V-CFG-3: under GEN1 the step after step 0 is step 2; between the steps STATUS reads 0x001 (R15, and the WAIT
reads of 95_test_vectors.md, 3). -/
theorem test_cfg_seq_skips_template_1 :
    look (exec .cfgSeq { running 0x0C .gen1 false with phase := 2, ackPos := 7, ackBranch := true, accOk := true, rx := [0x00] })
      (fun s => (s.kIdx, s.phase, s.attMask, s.okMask, s.status.word)) = some (2, 6, 0x01, 0x01, 0x001) := by decide

/-- V-CFG-1. -/
theorem test_cfg_seq_step_4 :
    look (exec .cfgSeq { running 0x0C .gen1 false with phase := 12, kIdx := 4, waiting := false })
      (fun s => (Memory.readRange s.frame 0 10, s.phase)) =
        some ([0xB5, 0x62, 0x06, 0x11, 0x02, 0x00, 0x08, 0x00, 0x21, 0x91], 13) := by decide

/-- V-ILL-2. -/
theorem test_reserved : look (exec (.reserved 0x0D) (running 0x0D .gen2 false)) (fun s => (s.op, s.status.word)) =
    some (0x0D, 0x032) := by decide

theorem test_frame_arrives :
    look (exec (.frame 0x01 0x02 [0x11, 0x22, 0x33, 0x44] 0xB1 0x82) { start .gen2 false with rx := [0xAA] })
      (fun s => s.rx) =
        some [0xAA, 0xB5, 0x62, 0x01, 0x02, 0x04, 0x00, 0x11, 0x22, 0x33, 0x44, 0xB1, 0x82] := by decide

/-- AckF(06,11). -/
theorem test_ack_arrives : look (exec (.ack 0x06 0x11 [0x1F, 0x48]) (start .gen2 false)) (fun s => s.rx) =
    some [0xB5, 0x62, 0x05, 0x01, 0x02, 0x00, 0x06, 0x11, 0x1F, 0x48] := by decide

/-- NakF(06,11). -/
theorem test_nak_arrives : look (exec (.nak 0x06 0x11 [0x1E, 0x43]) (start .gen2 false)) (fun s => s.rx) =
    some [0xB5, 0x62, 0x05, 0x00, 0x02, 0x00, 0x06, 0x11, 0x1E, 0x43] := by decide

/-- The poll request of message B. -/
theorem test_poll_request : look (exec (.pollRequest 0x01 0x06) (start .gen2 false)) (fun s => s.tx) =
    some [[0xB5, 0x62, 0x01, 0x06, 0x00, 0x00, 0x07, 0x16]] := by decide

/-! ## The host port -/

/-- V-ILL-4: the low byte of a 32-bit write is the opcode. -/
theorem test_issue_takes_the_low_byte :
    look (hostMove { start .gen2 false with program := [.writeReg 0x00 0x103] }) (fun s => (s.op, s.status.word)) =
      some (0x03, 0x001) := by decide

/-- V-ILL-8. -/
theorem test_busy_write_refused :
    refusedBy (hostMove { running 0x04 .gen2 false with program := [.writeReg 0x01 1] }) .busyAccess = true := by
  decide

/-- V-ILL-9. -/
theorem test_reserved_register_refused :
    refusedBy (hostMove { start .gen2 false with program := [.readReg 0x07] }) (.reservedIndex 0x07) = true := by
  decide

/-- V-ILL-10: refused before its first access. -/
theorem test_gen2_only_command_refused :
    refusedBy (hostMove { start .gen1 false with program := sendProgram 0x06 0x3E 1 1000 }) .unsupportedVariant =
      true := by decide

/-- The same program under GEN2 is admitted. -/
theorem test_gen2_only_command_admitted :
    look (hostMove { start .gen2 false with program := sendProgram 0x06 0x3E 1 1000 }) (fun s => s.argClass) =
      some 0x06 := by decide

/-- V-RST-2. -/
theorem test_reset_abandons_the_operation :
    look (step { running 0x04 .gen2 false with rx := [0xB5], schedule := [.reset] })
      (fun s => (s.rx, s.status.word, s.curOp, s.waiting)) = some ([0xB5], 0x000, 0x00, false) := by decide

/-- The altitude table of 95_test_vectors.md. -/
theorem test_alt_norm :
    [-2147483648, -1000, -999, -1, 0, 999, 1999, 2000, 2001, 24999, 402500, 12345000, 50000000, 50000999, 50001000,
      2147483647].map (fun r => altNorm (BitVec.ofInt 32 r)) =
      [1, 1, 1, 1, 1, 1, 1, 2, 2, 24, 402, 12345, 50000, 50000, 50000, 50000] := by decide

/-! ## A state for each obligation with hypotheses, clause by clause, at boundary values -/

/-- The longest payload 16 bits can give is a well-formed FRAME's (DecodeEncodeRoundTrip, FrameLayout). -/
theorem witness_longest_frame :
    (Instr.frame 0x01 0x02 (List.replicate 65535 0) 0 0).wellFormed (params .gen2 false) = true ∧
    (List.replicate 65535 (0 : Byte)).length ≤ 65535 := by
  simp only [Instr.wellFormed, List.length_replicate]
  decide

theorem witness_well_formed :
    (Instr.reserved 0x00).wellFormed (params .gen2 false) = true ∧
    (Instr.reserved 0x0D).wellFormed (params .gen2 false) = true ∧
    (Instr.reserved 0xFF).wellFormed (params .gen2 false) = true ∧
    (Instr.frame 0x05 0x01 [] 0 0).wellFormed (params .gen2 false) = true ∧
    (Instr.ack 0x06 0x11 [0, 0]).wellFormed (params .gen2 false) = true ∧
    (Instr.nak 0x06 0x11 [0, 0]).wellFormed (params .gen2 false) = true := by decide

theorem witness_FletcherClosedForm : ([1, 2] : List Byte).Perm [2, 1] := by decide

theorem witness_ResetMoveSetsTheTable :
    ({ running 0x04 .gen2 false with schedule := [.reset] } : State).schedule = Move.reset :: [] := rfl

theorem witness_ReadsAfterReset :
    (∀ index ∈ [(0x00 : BitVec 5), 0x06, 0x08, 0x0D, 0x10, 0x1A],
      programAdmitted (params .gen2 false) .gen2 0 0 [.readReg index] = true ∧
      ¬ (index ∈ [(0x07 : BitVec 5), 0x0E, 0x0F, 0x1B, 0x1C, 0x1D, 0x1E, 0x1F])) ∧
    programAdmitted (params .gen2 false) .gen2 0 0 [.readBuf .frame 263] = true ∧
    255 < bufferSize (params .gen2 false) .txp ∧ 263 < bufferSize (params .gen2 false) .frame ∧
    127 < bufferSize (params .gen2 false) .resp := by decide

/-- An idle host with a program. -/
def host (variant : Variant) (program : List Access) : State := { start variant false with program := program }

/-- A host with a program while an operation runs. -/
def busyHost (program : List Access) : State := { running 0x04 .gen2 false with program := program }

/-- The check of R206 on a state's whole program. -/
def checked (s : State) : Bool := programAdmitted s.par s.variant s.argClass s.argId s.program

theorem witness_IssueStartsTheOperation :
    (host .gen2 [.writeReg 0x00 0x103]).status.busy = false ∧ checked (host .gen2 [.writeReg 0x00 0x103]) = true := by
  decide

theorem witness_BusyAdmitsOnlyStatusReads :
    (busyHost []).status.busy = true ∧ checked (busyHost [.readReg 0x08]) = true ∧
    checked (busyHost [.wait]) = true ∧ checked (busyHost [.writeReg 0x00 0x03]) = true ∧
    Access.writeReg 0x00 0x03 ≠ .readReg 0x08 ∧ Access.writeReg 0x00 0x03 ≠ .wait := by decide

theorem witness_ReservedIndexesAndBits :
    checked (host .gen2 [.readReg 0x07]) = true ∧ checked (host .gen2 [.writeReg 0x1F 0]) = true ∧
    checked (host .gen2 [.readReg 0x1A]) = true ∧ checked (host .gen2 [.writeReg 0x06 0]) = true ∧
    (0x1F : BitVec 5) ∈ [(0x07 : BitVec 5), 0x0E, 0x0F, 0x1B, 0x1C, 0x1D, 0x1E, 0x1F] ∧
    ¬ ((0x1A : BitVec 5) ∈ [(0x07 : BitVec 5), 0x0E, 0x0F, 0x1B, 0x1C, 0x1D, 0x1E, 0x1F]) := by decide

/-- Reads at each end of the three parts of the map, every argument register, and a read-only write. -/
theorem witness_HostRegisterReadsAndWrites :
    (host .gen1 []).status.busy = false ∧
    (∀ index ∈ [(0x00 : BitVec 5), 0x06, 0x08, 0x0D, 0x10, 0x1A], checked (host .gen1 [.readReg index]) = true) ∧
    (∀ index ∈ [(0x01 : BitVec 5), 0x02, 0x03, 0x04, 0x05, 0x06],
      checked (host .gen1 [.writeReg index 0xFFFFFFFF, .readReg index]) = true) ∧
    (∀ index ∈ [(0x08 : BitVec 5), 0x1A], checked (host .gen1 [.writeReg index 0xFFFFFFFF]) = true) := by decide

/-- V-CFG-4's words as the host reads them: CFG_STATUS of four attempted steps, all acknowledged, and STATUS. -/
theorem test_host_reads_cfg_status :
    look (hostMove { host .gen1 [.readReg 0x0C] with
      cfgStatus := { cfgOk := true, attempted := 0b11101, stepOk := 0b11101 } }) (fun s => s.reads) =
        some [.reg 0x0C 0x001D1D01] := by decide

theorem witness_HostBufferAccess :
    BuffersCanonical (start .gen2 false) ∧ BuffersCanonical (running 0x04 .gen2 false) ∧
    checked (host .gen2 [.readBuf .frame 263]) = true ∧ 263 < bufferSize (params .gen2 false) .frame ∧
    checked (host .gen2 [.writeBuf .txp 255 0xAB]) = true ∧ 255 < (params .gen2 false).txpSize ∧
    checked (host .gen2 [.writeBuf .resp 127 0xAB]) = true ∧ 127 < (params .gen2 false).respSize ∧
    checked (host .gen2 [.writeBuf .frame 0 0xAB]) = true ∧
    checked (host .gen2 [.writeBuf .resp 128 0xAB]) = true ∧ bufferSize (params .gen2 false) .resp ≤ 128 ∧
    checked (host .gen2 [.readBuf .txp 256]) = true ∧ bufferSize (params .gen2 false) .txp ≤ 256 ∧
    checked (busyHost [.readBuf .resp 0]) = true := by
  refine ⟨⟨?_, ?_, ?_⟩, ⟨?_, ?_, ?_⟩, ?_⟩ <;> decide

theorem witness_UnsupportedVariantIsRefusedBeforeTheRun :
    { cls := 0x06, ident := 0x3E, payload := [0x01], gen2Only := true } ∈ (params .gen1 false).templates ∧
    (host .gen1 ([.wait] ++ sendProgram 0x06 0x3E 1 1000 ++ [])).variant = .gen1 ∧
    argByteAfter 0x01 0x06 [.writeReg 0x02 0x3E, .writeReg 0x03 1] = 0x06 ∧
    argByteAfter 0x02 0x00 [.writeReg 0x02 0x3E, .writeReg 0x03 1] = 0x3E ∧
    (0x102 : Word).setWidth 8 = 0x02#8 ∧
    look (hostMove (host .gen1 [.writeReg 0x01 0x06])) (fun s => s.argClass) = some 0x06 := by decide

theorem witness_StepRunsDecodedInstruction :
    ({ running 0x04 .gen2 false with schedule := [.engine] } : State).status.busy = true ∧
    decode (params .gen2 false) .command [(running 0x04 .gen2 false).curOp] = .ok .ackWait ∧
    (running 0x04 .gen2 false).schedule = [] ∧
    decode (params .gen2 false) .received [0xB5, 0x62, 0x01, 0x02, 0x00, 0x00, 0x03, 0x0A] =
      .ok (.frame 0x01 0x02 [] 0x03 0x0A) ∧
    (start .gen2 false).status.busy = false := ⟨rfl, rfl, rfl, rfl, rfl⟩

theorem witness_PollsBeginWithThePollRequest :
    ({ start .gen2 false with argCap := 128 } : State).phase = 0 ∧
    ({ start .gen2 false with argCap := 128 } : State).argCap.toNat ≤ (params .gen2 false).respSize ∧
    (start .gen2 false).variant = .gen2 ∧ (start .gen1 false).variant = .gen1 ∧
    ({ running 0x0B .gen1 false with phase := 3 } : State).phase = 3 ∧
    ({ running 0x0B .gen1 false with phase := 6 } : State).phase = 6 := by decide

theorem witness_EncodeBuildsTheFrame :
    framed.frame.wf = true ∧ ({ framed with argPlen := 256 } : State).argPlen.toNat ≤ framed.par.txpSize ∧
    framed.par.txpSize < ({ framed with argPlen := 257 } : State).argPlen.toNat := by decide

theorem witness_EncodeIsIdempotent :
    framed.frame.wf = true ∧ look (exec .encode framed) (fun s => s.status.done) = some true := by decide

theorem witness_TransmitSendsTheFrame :
    (264 : Word) ≠ 0 ∧ ({ framed with frameLen := 264 } : State).frameLen.toNat ≤ framed.par.txpSize + 8 ∧
    toSend.frameLen = 0 := by decide

theorem witness_SendCmdEncodesThenTransmitsThenWaits :
    toSend.frame.wf = true ∧ toSend.phase = 0 ∧
    ({ toSend with argPlen := 256 } : State).argPlen.toNat ≤ toSend.par.txpSize ∧
    toSend.par.txpSize < ({ toSend with argPlen := 257 } : State).argPlen.toNat ∧
    ({ framed with phase := 1 } : State).frameLen.toNat ≤ framed.par.txpSize + 8 ∧
    ({ framed with phase := 2 } : State).waiting = false := by decide

/-- The last byte of the awaited acknowledgement is next, at the deadline itself. -/
def lastAckByte (v : Byte) : State :=
  { running v .gen2 false with now := 1000, phase := 2, ackPos := 7, ackBranch := true, rx := [0x11, 0x1F] }

theorem witness_AckCompletesAckWaitAndSendCmd :
    WaitOpen (lastAckByte 0x04) ∧ WaitOpen (lastAckByte 0x03) ∧ (lastAckByte 0x03).phase = 2 ∧
    (lastAckByte 0x04).ackPos = 7 ∧ (lastAckByte 0x04).rx = (lastAckByte 0x04).argId :: [0x1F] :=
  ⟨⟨rfl, by decide⟩, ⟨rfl, by decide⟩, rfl, rfl, rfl⟩

theorem witness_AckWaitIteration :
    (running 0x04 .gen2 false).waiting = true ∧
    (running 0x04 .gen2 false).deadline < ({ running 0x04 .gen2 false with now := 1001 } : State).now ∧
    ({ running 0x04 .gen2 false with now := 1000 } : State).now ≤ (running 0x04 .gen2 false).deadline ∧
    (running 0x04 .gen2 false).rx = [] ∧
    ({ running 0x04 .gen2 false with rx := [0x00] } : State).rx = 0x00 :: [] := by decide

/-- An ACK wait just issued, on a stream, with engine moves scheduled. -/
def ackWaitOn (rx : List Byte) (n : Nat) : State :=
  { running 0x04 .gen2 false with waiting := false, rx := rx, schedule := List.replicate n Move.engine }

/-- V-ACK-3 and V-ACK-4 (T0 = 0). -/
theorem witness_AckWaitMatchesTemplateAfterJunk :
    (∀ b ∈ [(0x00 : Byte), 0x11, 0x22], b ≠ 0xB5) ∧ (ackWaitOn [] 0).waiting = false ∧
    Running (ackWaitOn [] 0) 0x04 ∧
    (ackWaitOn [0x00, 0x11, 0x22, 0xB5, 0x62, 0x05, 0x01, 0x02, 0x00, 0x06, 0x11, 0x1F] 12).rx =
      [0x00, 0x11, 0x22] ++ templateOf (params .gen2 false) 0x06 0x11 true ++ [0x1F] ∧
    (ackWaitOn [0x00, 0x11, 0x22, 0xB5, 0x62, 0x05, 0x01, 0x02, 0x00, 0x06, 0x11, 0x1F] 12).schedule =
      List.replicate ([(0x00 : Byte), 0x11, 0x22].length + 9) Move.engine ∧
    (ackWaitOn [0xB5, 0xB5, 0x62, 0x05, 0x01, 0x02, 0x00, 0x06, 0x11, 0x1F] 10).rx =
      0xB5 :: templateOf (params .gen2 false) 0x06 0x11 true ++ [0x1F] :=
  ⟨by decide, rfl, ⟨rfl, rfl⟩, rfl, rfl, rfl⟩

/-- An ACK wait in progress, the NAK template in the stream, eight engine moves. -/
def nakInStream : State :=
  { ackWaitOn [0xB5, 0x62, 0x05, 0x00, 0x02, 0x00, 0x06, 0x11] 8 with waiting := true }

theorem witness_AckWaitAnswersOnlyOnATemplate :
    Running nakInStream 0x04 ∧ WaitOpen nakInStream ∧ nakInStream.ackPos = 0 ∧ 8 ≤ nakInStream.rx.length ∧
    nakInStream.schedule = List.replicate 8 Move.engine ∧
    look (Host.Core.run core 8 nakInStream) (fun s => (s.status.busy, s.status.acked)) = some (false, false) :=
  ⟨⟨rfl, rfl⟩, ⟨rfl, by decide⟩, rfl, by decide, rfl, by decide⟩

/-- A receive in a given state of the demultiplexer, at the deadline itself. -/
def receiving (v : Byte) (variant : Variant) (verify : Bool) (st : DmxState) (len cnt : Half) (rx : List Byte) : State :=
  { running v variant verify with
    now := 1000, phase := 2, dmx := { st := st, len := len, cnt := cnt, ckA := 0x12, ckB := 0x34 }, rx := rx }

/-- The last byte RESP can hold. -/
theorem witness_ReceiveCompletesInDefaultMode :
    WaitOpen (receiving 0x06 .gen2 false .payload 128 127 [0xAB]) ∧ (params .gen2 false).verifyRxChecksum = false ∧
    (receiving 0x06 .gen2 false .payload 128 127 [0xAB]).resp.wf = true ∧
    (receiving 0x06 .gen2 false .payload 128 127 [0xAB]).dmx.cnt + 1 = 128 ∧
    (receiving 0x06 .gen2 false .payload 128 127 [0xAB]).dmx.cnt.toNat < (params .gen2 false).respSize ∧
    (receiving 0x05 .gen2 false .lenHi 0 0 [0x00]).dmx.len = 0 ∧
    (receiving 0x05 .gen2 false .lenHi 0 0 [0x00]).rx = 0 :: [] :=
  ⟨⟨rfl, by decide⟩, rfl, rfl, rfl, by decide, rfl, rfl⟩

theorem witness_ReceiveCompletesInVerifyMode :
    WaitOpen (receiving 0x05 .gen2 true .ckB 4 4 [0x34]) ∧ (params .gen2 true).verifyRxChecksum = true ∧
    (receiving 0x05 .gen2 true .ckB 4 4 [0x34]).dmx.st = .ckB ∧
    (receiving 0x05 .gen2 true .ckB 4 4 [0x34]).dmx.ckB = 0x34 ∧
    (receiving 0x05 .gen2 true .ckB 4 4 [0x35]).dmx.ckB ≠ 0x35 ∧
    (receiving 0x05 .gen2 true .ckA 4 4 [0x13]).dmx.st = .ckA ∧
    (receiving 0x05 .gen2 true .ckA 4 4 [0x13]).dmx.ckA ≠ 0x13 :=
  ⟨⟨rfl, by decide⟩, rfl, rfl, rfl, by decide, rfl, by decide⟩

/-- ARG_CAP = 92: a declared length of 93 and one of 92. -/
theorem witness_CapacityGuard :
    WaitOpen (receiving 0x05 .gen2 false .lenHi 93 0 [0x00]) ∧
    (receiving 0x05 .gen2 false .lenHi 93 0 [0x00]).dmx.len.toNat < 256 ∧
    (receiving 0x05 .gen2 false .lenHi 93 0 [0x00]).argCap.toNat < (93 : Half).toNat + 256 * (0x00 : Byte).toNat ∧
    (92 : Half).toNat + 256 * (0x00 : Byte).toNat ≤ (receiving 0x05 .gen2 false .lenHi 92 0 [0x00]).argCap.toNat ∧
    (92 : Half).toNat + 256 * (0x00 : Byte).toNat ≠ 0 :=
  ⟨⟨rfl, by decide⟩, by decide, by decide, by decide, by decide⟩

theorem witness_ReceiveWithoutAByte :
    (receiving 0x05 .gen2 false .sync1 0 0 []).waiting = true ∧ (receiving 0x06 .gen2 false .sync1 0 0 []).phase = 2 ∧
    (receiving 0x05 .gen2 false .sync1 0 0 []).now ≤ (receiving 0x05 .gen2 false .sync1 0 0 []).deadline ∧
    (1000 : Nat) < ({ receiving 0x05 .gen2 false .sync1 0 0 [] with now := 1001 } : State).now ∧
    ({ running 0x05 .gen2 false with waiting := false, argCap := 129 } : State).waiting = false ∧
    (params .gen2 false).respSize < ({ running 0x05 .gen2 false with argCap := 129 } : State).argCap.toNat ∧
    ({ running 0x06 .gen2 false with argCap := 129 } : State).phase = 0 := by decide

/-- 0xB5 where 0x62, the class or the id was due. -/
theorem witness_HeaderMismatchDropsTheByte :
    (0x62 : Byte) ≠ 0xB5 ∧ (0xB5 : Byte) ≠ 0x62 ∧ (0xB5 : Byte) ≠ 0x01 ∧ (0xB5 : Byte) ≠ 0x02 := by decide

/-- RECV_PAYLOAD just issued for (0x06, 0x11), on a stream, with engine moves scheduled. -/
def receiveOn (verify : Bool) (rx : List Byte) (n : Nat) : State :=
  { running 0x05 .gen2 verify with waiting := false, rx := rx, schedule := List.replicate n Move.engine }

/-- One unrelated frame (the same class, another id), then the target. -/
theorem witness_DemultiplexerReconstructs :
    Running (receiveOn false [] 0) 0x05 ∧ (receiveOn false [] 0).waiting = false ∧
    (receiveOn false [] 0).argCap.toNat ≤ (params .gen2 false).respSize ∧ (receiveOn false [] 0).resp.wf = true ∧
    ((0x06 : Byte), (0x12 : Byte)) ≠ (0x06, 0x11) ∧
    (∀ x ∈ (frameWith 0x06 0x12 [0x01, 0x02] 0x1D 0x5E).drop 3, x ≠ 0xB5) ∧
    (List.replicate 92 (0 : Byte)).length ≤ (receiveOn false [] 0).argCap.toNat ∧
    (receiveOn true (frameWith 0x06 0x12 [0x01, 0x02] 0x1D 0x5E ++ frameBytes 0x06 0x11 [0x08, 0x00] ++ []) 21).schedule =
      List.replicate ([(0x01 : Byte), 0x02].length + [(0x08 : Byte), 0x00].length + 15 +
        if (params .gen2 true).verifyRxChecksum then 2 else 0) Move.engine :=
  ⟨⟨rfl, rfl⟩, rfl, by decide, rfl, by decide, by decide, by simp only [List.length_replicate]; decide, rfl⟩

theorem witness_VerifyModeDiscardsABadFrame :
    Running (receiveOn true [] 0) 0x05 ∧ (params .gen2 true).verifyRxChecksum = true ∧
    ((0x21 : Byte), (0x92 : Byte)) ≠ fletcher8 (frameHeader 0x06 0x11 2 ++ [0x08, 0x00]) ∧
    ((0x20 : Byte), (0xB5 : Byte)) ≠ fletcher8 (frameHeader 0x06 0x11 2 ++ [0x08, 0x00]) ∧
    (receiveOn true [0xB5, 0x62, 0x06, 0x11, 0x02, 0x00, 0x08, 0x00, 0x20, 0xB5] 11).rx =
      frameWith 0x06 0x11 [0x08, 0x00] 0x20 0xB5 ++ [] ∧
    look (Host.Core.run core 11 (receiveOn true [0xB5, 0x62, 0x06, 0x11, 0x02, 0x00, 0x08, 0x00, 0x20, 0xB5] 11))
      (fun s => s.dmx.st) = some .sync2 ∧
    look (Host.Core.run core 11 (receiveOn true [0xB5, 0x62, 0x06, 0x11, 0x02, 0x00, 0x08, 0x00, 0x21, 0xB5] 11))
      (fun s => s.dmx.st) = some .sync1 :=
  ⟨⟨rfl, rfl⟩, rfl, by decide, by decide, by decide, by decide, by decide⟩

theorem witness_LeftoverSyncByteHidesTheFrame :
    Running (receiveOn false (0xB5 :: frameBytes 0x06 0x11 [0x08] ++ []) 4) 0x05 ∧
    (receiveOn false (0xB5 :: frameBytes 0x06 0x11 [0x08] ++ []) 4).waiting = false ∧
    (receiveOn false [] 4).argCap.toNat ≤ (params .gen2 false).respSize ∧
    (receiveOn false [] 4).schedule = List.replicate 4 Move.engine :=
  ⟨⟨rfl, rfl⟩, rfl, by decide, rfl⟩

/-- A receive of RECV_PAYLOAD in its payload, the last byte below ARG_CAP next. -/
def midPayload : State := receiving 0x05 .gen2 false .payload 92 91 [0xAB]

theorem midPayload_indexesInside : IndexesInside midPayload where
  frameLen := by decide
  payload := fun _ _ _ _ => by decide
  recvCap := fun _ _ _ => by decide
  pollCap := fun _ h _ => absurd h (by decide)
  template := fun _ h _ => absurd h (by decide)

theorem witness_ReceiveFootprint :
    IndexesInside midPayload ∧ midPayload.resp.wf = true ∧ midPayload.status.busy = true ∧
    receives midPayload.curOp ∧
    look (exec (decodeOp midPayload.curOp) midPayload) (fun s => Memory.read s.resp 91) = some 0xAB ∧
    Memory.read midPayload.resp 91 = 0x00 :=
  ⟨midPayload_indexesInside, rfl, rfl, .inl rfl, by decide, rfl⟩

theorem witness_AltNormPolicyAndLaws_laws :
    (1999#32).toInt < 2000 ∧ 2000 ≤ (2000#32).toInt ∧ (2000#32).toInt < 50000000 ∧ 50000000 ≤ (50000000#32).toInt ∧
    (BitVec.ofInt 32 (-1)).toInt ≤ (0#32).toInt := by decide

theorem witness_AltNormPolicyAndLaws_policy :
    Int.tdiv (BitVec.ofInt 32 (-999)).toInt 1000 ≤ 0 ∧ 50000 < Int.tdiv (50001000#32).toInt 1000 ∧
    0 < Int.tdiv (1000#32).toInt 1000 ∧ Int.tdiv (50000999#32).toInt 1000 ≤ 50000 := by decide

theorem witness_AcquireFixGen2 :
    (receiving 0x0B .gen2 false .payload 128 127 [0xAB]).variant = .gen2 ∧
    (receiving 0x0B .gen2 false .payload 128 127 [0xAB]).phase = 2 ∧
    (receiving 0x0B .gen2 false .payload 128 127 [0xAB]).waiting = true ∧
    (receiving 0x0B .gen2 false .payload 128 127 [0xAB]).now ≤ 1000 ∧
    (receiving 0x0B .gen2 false .payload 128 127 [0xAB]).dmx.cnt + 1 = 128 ∧ 127 < (params .gen2 false).respSize ∧
    (1000 : Nat) < ({ running 0x0B .gen2 false with phase := 2, now := 1001 } : State).now ∧
    (params .gen2 true).verifyRxChecksum = true ∧ (receiving 0x0B .gen2 true .ckB 92 92 [0x34]).dmx.ckB = 0x34 ∧
    (receiving 0x0B .gen2 false .lenHi 129 0 [0x00]).dmx.len.toNat < 256 ∧
    (params .gen2 false).respSize < (129 : Half).toNat + 256 * (0x00 : Byte).toNat := by decide

/-- Each way a poll ends, at the deadline itself but for the last, and one of its phases. -/
theorem witness_AcquireFixGen1 :
    (∃ u, AcquirePollEnds (receiving 0x0B .gen1 false .payload 28 27 [0x07]) u true false 28) ∧
    (∃ u, AcquirePollEnds { receiving 0x0B .gen1 false .lenHi 0 0 [0x00] with phase := 5 } u true false 0) ∧
    (∃ u, AcquirePollEnds { receiving 0x0B .gen1 true .ckB 20 20 [0x34] with phase := 8 } u true false 20) ∧
    (∃ u, AcquirePollEnds { receiving 0x0B .gen1 true .lenHi 129 0 [0x00] with phase := 5 } u false true 0) ∧
    (∃ u, AcquirePollEnds { running 0x0B .gen1 false with phase := 8, now := 1001 } u false false 0) ∧
    (running 0x0B .gen1 false).variant = .gen1 ∧ (running 0x0B .gen1 false).waiting = true :=
  ⟨⟨_, .inl ⟨0x07, [], by decide, rfl, .inl ⟨rfl, rfl, rfl, by decide, rfl, rfl, rfl, rfl⟩⟩⟩,
    ⟨_, .inl ⟨0x00, [], by decide, rfl, .inr (.inl ⟨rfl, rfl, rfl, rfl, rfl, rfl, rfl, rfl⟩)⟩⟩,
    ⟨_, .inl ⟨0x34, [], by decide, rfl, .inr (.inr (.inl ⟨rfl, rfl, rfl, rfl, rfl, rfl, rfl⟩))⟩⟩,
    ⟨_, .inl ⟨0x00, [], by decide, rfl, .inr (.inr (.inr ⟨rfl, by decide, by decide, rfl, rfl, rfl, rfl⟩))⟩⟩,
    ⟨_, .inr ⟨by decide, rfl, rfl, rfl, rfl⟩⟩, rfl, rfl⟩

theorem witness_CfgSeqSkipsOnlyGen2Templates :
    nextTemplate (params .gen1 false) .gen1 1 = some 2 ∧ nextTemplate (params .gen2 false) .gen2 1 = some 1 ∧
    nextTemplate (params .gen1 false) .gen1 5 = none := by decide

/-- An instance whose one template is Gen2-only. -/
def gen2OnlyParams : Params :=
  { params .gen1 false with templates := [{ cls := 0x06, ident := 0x3E, payload := [], gen2Only := true }] }

/-- CFG_SEQ just issued on it: no template to send. -/
def nothingToSend : State :=
  { State.resetOf ⟨gen2OnlyParams, rfl⟩ with
    curOp := 0x0C, status := { busy := true, done := false, ok := false, err := .none, acked := false } }

theorem witness_CfgSeqSendsTheTemplate_first_step :
    (running 0x0C .gen1 false).phase = 0 ∧ nextTemplate (params .gen1 false) .gen1 0 = some 0 ∧
    ((params .gen1 false).templates[0]?).isSome = true ∧ nothingToSend.phase = 0 ∧ nothingToSend.frame.wf = true ∧
    nextTemplate gen2OnlyParams .gen1 0 = none ∧
    look (exec .cfgSeq nothingToSend) (fun s => (s.status.word, s.cfgStatus.word)) = some (0x006, 0x1) := by decide

/-- CFG_SEQ at template 4, the last. -/
def lastTemplate (phase : Nat) : State := { running 0x0C .gen1 false with phase := phase, kIdx := 4, accOk := true }

theorem witness_CfgSeqSendsTheTemplate :
    (lastTemplate 12).frame.wf = true ∧ ((lastTemplate 12).par.templates[(lastTemplate 12).kIdx]?).isSome = true ∧
    (lastTemplate 12).phase ≠ 0 ∧ (lastTemplate 12).phase % 3 = 0 ∧ (lastTemplate 13).phase % 3 = 1 ∧
    ({ lastTemplate 13 with frameLen := 264 } : State).frameLen.toNat ≤ (params .gen1 false).txpSize + 8 := by decide

/-- The NAK of the first template, and the timeout of the last. -/
theorem witness_CfgSeqCompletesAndGoesOn :
    (∃ u, CfgAckEnds { running 0x0C .gen1 false with phase := 2, now := 1000, ackPos := 7, rx := [0x00] } u
      { cls := 0x06, ident := 0x00, payload := [0x00], gen2Only := false } false) ∧
    (∃ u, CfgAckEnds { lastTemplate 14 with now := 1001 } u
      { cls := 0x06, ident := 0x11, payload := [0x08, 0x00], gen2Only := false } false) ∧
    (lastTemplate 14).waiting = true ∧ (lastTemplate 14).phase = 3 * (lastTemplate 14).kIdx + 2 ∧
    (lastTemplate 14).par.templates[4]? = some { cls := 0x06, ident := 0x11, payload := [0x08, 0x00], gen2Only := false } ∧
    nextTemplate (params .gen1 false) .gen1 (4 + 1) = none ∧ nextTemplate (params .gen1 false) .gen1 (0 + 1) = some 2 :=
  ⟨⟨_, .inl ⟨[], by decide, rfl, rfl, rfl, rfl⟩⟩, ⟨_, .inr ⟨by decide, rfl, rfl⟩⟩, rfl, rfl, rfl, by decide, by decide⟩

/-- The last wait of CFG_SEQ, past its deadline, the engine to move. -/
def lastTimeout : State := { lastTemplate 14 with schedule := [.engine], now := 1001 }

theorem lastTimeout_cfgStatusLegal : CfgStatusLegal lastTimeout where
  recorded := .inl rfl
  running := fun _ _ _ => ⟨⟨by decide, by decide⟩, fun j _ => BitVec.getLsbD_zero⟩

/-- The state is one the invariant allows, and it steps to the end of CFG_SEQ. -/
theorem witness_StepKeepsCfgStatusLegal :
    CfgStatusLegal lastTimeout ∧ look (step lastTimeout) (fun s => s.cfgStatus.attempted) = some 0x10 :=
  ⟨lastTimeout_cfgStatusLegal, by decide⟩

/-- A SEND_CMD with template 4's arguments. -/
def asSendCmd (phase : Nat) : State :=
  { lastTemplate phase with
    argClass := 0x06, argId := 0x11, argPlen := 2, txp := [(0, 0x08)], curOp := 0x03, phase := phase % 3 }

/-- CFG_SEQ between the encode and the write of template 4: the invariant is met, and the step writes it. -/
def sendingLast : State :=
  { lastTemplate 13 with
    frame := Memory.writeRange [] 0 (frameBytes 0x06 0x11 [0x08, 0x00]), frameLen := 10, schedule := [.engine] }

theorem witness_StepKeepsCfgTargetApplicable :
    CfgTargetApplicable sendingLast ∧ sendingLast.status.busy = true ∧ sendingLast.curOp = 0x0C ∧
    look (step sendingLast) (fun s => s.tx) =
      some [[0xB5, 0x62, 0x06, 0x11, 0x02, 0x00, 0x08, 0x00, 0x21, 0x91]] :=
  ⟨⟨by decide, fun _ _ _ => ⟨{ cls := 0x06, ident := 0x11, payload := [0x08, 0x00], gen2Only := false }, rfl,
    by decide, fun _ => by decide⟩⟩, rfl, rfl, by decide⟩

theorem witness_CfgSeqStepIsASendCmd :
    (lastTemplate 12).phase ≠ 0 ∧ Memory.readRange (asSendCmd 12).txp 0 2 = [0x08, 0x00] ∧
    look (exec .cfgSeq (lastTemplate 12)) (fun s => s.frameLen) = some 10 ∧
    look (exec .sendCmd (asSendCmd 12)) (fun s => s.frameLen) = some 10 ∧
    look (exec .cfgSeq { lastTemplate 14 with now := 1001 }) (fun s => s.waiting) = some false ∧
    look (exec .sendCmd { asSendCmd 14 with now := 1001 }) (fun s => s.waiting) = some false := by decide

theorem witness_ReservedFinishesIllegal : (0x0D : Byte) ≤ 0x0D ∧ (0x0D : Byte) ≤ 0xFF := by decide

theorem witness_PollRequestIsBuiltAndSent : framed.frame.wf = true := rfl

/-- TRANSMIT running, the frame of V-POLL-1 in FRAME. -/
def transmitting : State := { framed with curOp := 0x02, schedule := [.engine] }

theorem transmitting_frameHeld : FrameHeld transmitting where
  canonical := rfl
  held := .inr ⟨0x01, 0x07, [], by decide, by decide, by decide⟩
  sending := fun _ h => absurd h (by decide)

theorem transmitting_indexesInside : IndexesInside transmitting where
  frameLen := by decide
  payload := fun _ h _ _ => absurd h (by unfold receives; decide)
  recvCap := fun _ h _ => absurd h (by decide)
  pollCap := fun _ h _ => absurd h (by decide)
  template := fun _ h _ => absurd h (by decide)

/-- One state for the statements over every step: it meets each invariant, and it steps. -/
theorem witness_steps :
    BuffersCanonical transmitting ∧ StatusLegal transmitting ∧ IndexesInside transmitting ∧ FrameHeld transmitting ∧
    look (step transmitting) (fun s => (s.tx, s.status.word)) =
      some ([[0xB5, 0x62, 0x01, 0x07, 0x00, 0x00, 0x08, 0x19]], 0x006) := by
  refine ⟨⟨?_, ?_, ?_⟩, ⟨?_, ?_, ?_⟩, transmitting_indexesInside, transmitting_frameHeld, ?_⟩ <;> decide

/-- The receive's invariant is met in the middle of a payload, and the step goes on (StepKeepsIndexesInside,
StepNeverFaults). -/
theorem witness_StepKeepsIndexesInside :
    IndexesInside { midPayload with schedule := [.engine] } ∧
    look (step { midPayload with schedule := [.engine] }) (fun s => s.resultLen) = some 92 :=
  ⟨⟨midPayload_indexesInside.1, midPayload_indexesInside.2, midPayload_indexesInside.3, midPayload_indexesInside.4,
    midPayload_indexesInside.5⟩, by decide⟩

theorem witness_VariantAndTemplatesAreConstant :
    look (step { start .gen1 false with variant := .gen2, schedule := [.reset] }) (fun s => s.variant) = some .gen1 ∧
    look (step { start .gen1 false with variant := .gen2, schedule := [.engine] }) (fun s => s.variant) = some .gen2 := by
  decide

theorem witness_ResultRegistersByInstruction :
    look (exec .decodePvt (start .gen2 false)) (fun s => decide (s.fixReg ≠ FixRecord.reset)) = some true ∧
    look (exec .acquireFix (receiving 0x0B .gen2 false .payload 128 127 [0xAB])) (fun s => s.acqStatus.success) = some true ∧
    look (exec .cfgSeq { lastTemplate 14 with now := 1001 }) (fun s => decide (s.cfgStatus.attempted ≠ 0)) = some true ∧
    look (exec .recvPayload midPayload) (fun s => s.resultLen) = some 92 ∧
    look (exec .ackWait (lastAckByte 0x04)) (fun s => s.status.acked) = some true ∧
    look (exec .encode toSend) (fun s => s.frameLen) = some 10 ∧
    look (exec .transmit framed) (fun s => s.tx.length) = some 1 := by decide

/-- A reserved opcode just issued, nothing scheduled and no access left: one engine step, then free draws. -/
def oneOperation : State := { running 0x0D .gen2 false with waiting := false }

/-- An infinite run from it. -/
def oneOperationRun : Nat → State
  | 0 => oneOperation
  | n + 1 => State.freeDraw^[n] (oneOperation.freeDraw.finish false .illegal)

/-- The run is one of the model, it is fair, and it begins with a busy engine (StreamOrderAndClock,
EveryOperationFinishes). -/
theorem witness_EveryOperationFinishes :
    InfiniteRun oneOperationRun ∧ FairRun oneOperationRun ∧ (oneOperationRun 0).status.busy = true := by
  refine ⟨fun n => ?_, fun bound => ?_, rfl⟩
  · cases n with
    | zero => rfl
    | succ n =>
      have hidle : ∀ k, step (oneOperationRun (k + 1)) = .next (oneOperationRun (k + 1)).freeDraw := by
        intro k
        have hs : (oneOperationRun (k + 1)).schedule = [] ∧ (oneOperationRun (k + 1)).status.busy = false ∧
            (oneOperationRun (k + 1)).program = [] := by
          induction k with
          | zero => exact ⟨rfl, rfl, rfl⟩
          | succ k ih => simpa [oneOperationRun, Function.iterate_succ_apply', State.freeDraw] using ih
        unfold step
        rw [hs.1]
        simp [runUnscheduled, State.freeDraw, hostMove, hs, programAdmitted]
      rw [hidle n]
      exact congrArg _ (Function.iterate_succ_apply' _ _ _).symm
  · obtain ⟨n, hn⟩ := freeDraw_unbounded (oneOperation.freeDraw.finish false .illegal) bound
    exact ⟨n + 1, hn⟩

theorem witness_ErrorCodesByInstruction :
    (running 0x04 .gen2 false).status.done = false ∧
    look (exec .ackWait { running 0x04 .gen2 false with now := 1001 }) (fun s => s.status.err) = some .fail ∧
    look (exec .recvPayload (receiving 0x05 .gen2 false .lenHi 93 0 [0x00])) (fun s => s.status.err) = some .capacity ∧
    look (exec (.reserved 0x0D) (running 0x0D .gen2 false)) (fun s => s.status.err) = some .illegal := by decide

/-- CFG_SEQ waiting for template 4, past its deadline. -/
theorem witness_DeadlineEndsEveryWait :
    IndexesInside { lastTemplate 14 with now := 1001 } ∧ (lastTemplate 14).status.busy = true ∧
    (lastTemplate 14).waiting = true ∧ (lastTemplate 14).deadline < 1001 ∧ (lastTemplate 14).curOp = 0x0C ∧
    (lastTemplate 14).phase % 3 = 2 ∧
    (∀ v ∈ [(0x03 : Byte), 0x04, 0x05, 0x06, 0x0B],
      look (engineMove { running v .gen1 false with phase := 2, now := 1001 }) (fun s => s.waiting) = some false) := by
  refine ⟨?_, by decide, by decide, by decide, by decide, by decide, by decide⟩
  exact {
    frameLen := by decide
    payload := fun _ h _ _ => absurd h (by unfold receives; decide)
    recvCap := fun _ h _ => absurd h (by decide)
    pollCap := fun _ h _ => absurd h (by decide)
    template := fun _ _ _ => by decide }

/-- V-ACK-8 and its receive: t = 0, one sleep. -/
theorem witness_EmptyStreamTimesOutAtTheBoundary :
    (∀ v ∈ [(0x04 : Byte), 0x05],
      ({ running v .gen2 false with waiting := false, argTimeout := 0 } : State).status.busy = true ∧
      ({ running v .gen2 false with waiting := false, argTimeout := 0 } : State).rx = [] ∧
      ({ running v .gen2 false with waiting := false, argTimeout := 0 } : State).curOp = v) ∧
    (running 0x05 .gen2 false).argCap.toNat ≤ (params .gen2 false).respSize ∧
    1 = (0 : Word).toNat / (params .gen2 false).pollSleepAckMs + 1 ∧
    look (Host.Core.run core 4 { running 0x04 .gen2 false with
      waiting := false, argTimeout := 0, schedule := [.engine, .engine, .clock 100, .engine] })
      (fun s => (s.now, s.sleeps, s.status.word)) = some (100, [100], 0x012) := by decide

end Sys2Proof.Tests
end

section
/-! The sequencing state forms no index outside a buffer or the template table (spec/00_scope.md R12,
spec/42_payload_demux.md R132, spec/44_config_sequence.md R191): every move of every agent keeps `IndexesInside`,
and none of them raises `indexOutside` from such a state. -/

namespace Sys2Proof

/-- R6 bounds RESP_SIZE by what a 16-bit capacity can hold. -/
theorem Instance.respSize_le (i : Instance) : i.p.respSize ≤ 65535 := by
  have h := i.ok
  simp only [Params.admissible, Bool.and_eq_true, decide_eq_true_eq, and_assoc] at h
  obtain ⟨_, _, _, hresp, _⟩ := h
  exact hresp

/-- R191: the payload of every template fits TXP. -/
theorem Instance.template_payload_le (i : Instance) {t : Template} (ht : t ∈ i.p.templates) :
    t.payload.length ≤ i.p.txpSize := by
  have h := i.ok
  simp only [Params.admissible, Bool.and_eq_true, List.all_eq_true, decide_eq_true_eq] at h
  obtain ⟨_, hpayloads⟩ := h
  exact hpayloads t ht

/-- A received unit is a FRAME, an ACK or a NAK (30_encoding.md R70, R74). -/
theorem decode_received_cases {p : Params} {bs : List Byte} {u : Instr} (h : decode p .received bs = .ok u) :
    (∃ c i pl a b, u = .frame c i pl a b) ∨ (∃ c i tail, u = .ack c i tail) ∨ (∃ c i tail, u = .nak c i tail) := by
  have hbody : ∃ c i n body, decodeReceivedBody p c i n body = .ok u := by
    simp only [decode, decodeWire, Bool.false_eq_true, if_false] at h
    split at h
    · split at h
      · cases h
      · split at h
        · cases h
        · split at h
          · cases h
          · exact ⟨_, _, _, _, h⟩
    · cases h
  obtain ⟨c, i, n, body, hbody⟩ := hbody
  unfold decodeReceivedBody at hbody
  split at hbody
  · split at hbody
    · split at hbody <;> cases hbody
      · exact .inr (.inl ⟨_, _, _, rfl⟩)
      · exact .inr (.inr ⟨_, _, _, rfl⟩)
    · cases hbody
  · split at hbody
    · cases hbody; exact .inl ⟨_, _, _, _, _, rfl⟩
    · cases hbody

end Sys2Proof

namespace Sys2Proof.Machine

/-! ## What the invariant depends on -/

/-- The part of the state that `IndexesInside` speaks of. -/
def State.sequencing (s : State) : Instance × Word × Bool × Byte × Bool × Dmx × Half × Nat × Nat :=
  (s.inst, s.frameLen, s.status.busy, s.curOp, s.waiting, s.dmx, s.argCap, s.phase, s.kIdx)

/-- Two states that agree on the sequencing state meet the invariant together. -/
theorem IndexesInside.of_sequencing_eq {s t : State} (h : IndexesInside s) (hst : t.sequencing = s.sequencing) :
    IndexesInside t := by
  simp only [State.sequencing, Prod.mk.injEq] at hst
  obtain ⟨hinst, hlen, hbusy, hop, hwait, hdmx, hcap, hphase, hk⟩ := hst
  obtain ⟨frameLen, payload, recvCap, pollCap, template⟩ := h
  constructor <;> simp only [capacityOf, State.par, hinst, hlen, hbusy, hop, hwait, hdmx, hcap, hphase, hk] <;>
    assumption

/-- With no operation running only FRAME_LEN is bounded. -/
theorem IndexesInside.of_idle {s : State} (hidle : s.status.busy = false)
    (hlen : s.frameLen.toNat ≤ bufferSize s.par .frame) : IndexesInside s where
  frameLen := hlen
  payload := fun h => by simp [hidle] at h
  recvCap := fun h => by simp [hidle] at h
  pollCap := fun h => by simp [hidle] at h
  template := fun h => by simp [hidle] at h

/-- An operation that is no receive is bounded by FRAME_LEN and, in CFG_SEQ, by the template table. -/
theorem IndexesInside.of_not_receives {s : State} (hop : ¬ receives s.curOp)
    (hlen : s.frameLen.toNat ≤ bufferSize s.par .frame)
    (htempl : s.curOp = 0x0C → s.kIdx < s.par.templates.length) : IndexesInside s where
  frameLen := hlen
  payload := fun _ h => absurd h hop
  recvCap := fun _ h => absurd (.inl h) hop
  pollCap := fun _ h => absurd (.inr (.inl h)) hop
  template := fun _ h _ => htempl h

/-- An operation that is over, or an idle block that moves, keeps the invariant with its FRAME_LEN. -/
theorem IndexesInside.to_idle {s t : State} (h : IndexesInside s) (hidle : t.status.busy = false)
    (hinst : t.inst = s.inst) (hlen : t.frameLen = s.frameLen) : IndexesInside t :=
  .of_idle hidle (by simpa only [State.par, hinst, hlen] using h.frameLen)

/-! ## The outcome of a move -/

/-- A move is safe: it does not fault, and the state it leads to meets the invariant. -/
structure IndexesSafe (o : Host.Outcome State Fault Refusal) : Prop where
  next : ∀ t, o = .next t → IndexesInside t
  noFault : ∀ f, o ≠ .fault f

theorem IndexesSafe.of_inside {t : State} (h : IndexesInside t) : IndexesSafe (.next t) where
  next := fun _ ht => by cases ht; exact h
  noFault := fun _ hf => by cases hf

/-! ## The operations on FRAME -/

/-- The FRAME_LEN of a payload that fits TXP fits FRAME (20_memory.md R54, 40_command_encoder.md R92). -/
theorem encodedLen_le {p : Params} {n : Nat} (hn : n ≤ p.txpSize) :
    (BitVec.ofNat 32 (n + 8)).toNat ≤ bufferSize p .frame := by
  have hmod : (BitVec.ofNat 32 (n + 8)).toNat ≤ n + 8 := Nat.mod_le _ _
  simp only [bufferSize]
  omega

/-- ENCODE and SEND_CMD encode only a payload of at most TXP_SIZE bytes (30_encoding.md R78). -/
theorem txpPayload_length_le {s : State} (h : ¬ s.badPlen = true) : s.txpPayload.length ≤ s.par.txpSize := by
  simpa [State.badPlen, State.txpPayload] using h

/-- The write of FRAME[0 .. FRAME_LEN-1] does not fault. -/
theorem txFrame_of_inside {s : State} (h : IndexesInside s) :
    s.txFrame = .ok (s.txWrite (Memory.readRange s.frame 0 s.frameLen.toNat)) :=
  if_pos h.frameLen

theorem execEncode_safe {s : State} (h : IndexesInside s) : IndexesSafe (execEncode s) := by
  unfold execEncode
  split
  · exact .of_inside (h.to_idle rfl rfl rfl)
  · rename_i hplen
    exact .of_inside (.of_idle rfl (encodedLen_le (txpPayload_length_le hplen)))

theorem execTransmit_safe {s : State} (h : IndexesInside s) : IndexesSafe (execTransmit s) := by
  unfold execTransmit
  rw [txFrame_of_inside h]
  split
  · exact .of_inside (h.to_idle rfl rfl rfl)
  · exact .of_inside (h.to_idle rfl rfl rfl)

/-! ## The ACK wait and its operations -/

/-- What an engine step of an ACK wait leaves alone of the sequencing state. -/
theorem ackWait_unchanged {s s' : State} {c i : Byte} {r : Option Bool} (h : s.ackWait c i = (s', r)) :
    s'.inst = s.inst ∧ s'.frameLen = s.frameLen ∧ s'.curOp = s.curOp ∧ s'.kIdx = s.kIdx := by
  obtain ⟨_, rfl, _⟩ | ⟨_, _, rfl, _⟩ | ⟨_, _, _, rfl, _⟩ | ⟨_, _, b, rest, _, _, rfl⟩ := ackWait_cases h <;>
    exact ⟨rfl, rfl, rfl, rfl⟩

/-- An engine step of an ACK wait keeps the invariant: it runs no receive and stays at its template. -/
theorem ackWait_indexesInside {s s' : State} {c i : Byte} {r : Option Bool} (h : IndexesInside s)
    (hop : ¬ receives s.curOp) (htempl : s.curOp = 0x0C → s.kIdx < s.par.templates.length)
    (hw : s.ackWait c i = (s', r)) : IndexesInside s' := by
  obtain ⟨hinst, hlen, hcur, hk⟩ := ackWait_unchanged hw
  refine .of_not_receives (by rwa [hcur]) ?_ ?_
  · simpa only [State.par, hinst, hlen] using h.frameLen
  · simpa only [State.par, hinst, hcur, hk] using htempl

theorem execAckWait_safe {s : State} (h : IndexesInside s) (hop : s.curOp = 0x04) : IndexesSafe (execAckWait s) := by
  unfold execAckWait
  have hrecv : ¬ receives s.curOp := by simp [receives, hop]
  have htempl : s.curOp = 0x0C → s.kIdx < s.par.templates.length := by simp [hop]
  split <;> rename_i hw
  · exact .of_inside (ackWait_indexesInside h hrecv htempl hw)
  · exact .of_inside ((ackWait_indexesInside h hrecv htempl hw).to_idle rfl rfl rfl)

theorem execSendCmd_safe {s : State} (h : IndexesInside s) (hop : s.curOp = 0x03) : IndexesSafe (execSendCmd s) := by
  have hrecv : ¬ receives s.curOp := by simp [receives, hop]
  have htempl : s.curOp = 0x0C → s.kIdx < s.par.templates.length := by simp [hop]
  unfold execSendCmd
  split
  · unfold sendCmdEncode
    split
    · exact .of_inside (h.to_idle rfl rfl rfl)
    · rename_i hplen
      exact .of_inside (.of_not_receives hrecv (encodedLen_le (txpPayload_length_le hplen)) htempl)
  · rw [txFrame_of_inside h]
    exact .of_inside (.of_not_receives hrecv h.frameLen htempl)
  · unfold sendCmdWait
    split <;> rename_i hw
    · exact .of_inside (ackWait_indexesInside h hrecv htempl hw)
    · exact .of_inside ((ackWait_indexesInside h hrecv htempl hw).to_idle rfl rfl rfl)

/-! ## CFG_SEQ -/

/-- The next template to send is one of the table (44_config_sequence.md R192). -/
theorem nextTemplate_lt {p : Params} {v : Variant} {k j : Nat} (h : nextTemplate p v k = some j) :
    j < p.templates.length :=
  List.mem_range.1 (List.mem_of_find?_eq_some h)

/-- The encode of a template of the table does not fault, and its frame fits FRAME. -/
theorem cfgEncode_safe {s : State} {k : Nat} (hop : ¬ receives s.curOp) (hk : k < s.par.templates.length) :
    IndexesSafe (cfgEncode s k) := by
  unfold cfgEncode
  rw [List.getElem?_eq_getElem hk]
  have hfits := s.inst.template_payload_le (List.getElem_mem hk)
  exact .of_inside (.of_not_receives hop (encodedLen_le hfits) fun _ => hk)

theorem cfgStart_safe {s : State} (h : IndexesInside s) (hop : ¬ receives s.curOp) : IndexesSafe (cfgStart s) := by
  simp only [cfgStart]
  split
  · rename_i k hk
    exact cfgEncode_safe hop (nextTemplate_lt hk)
  · exact .of_inside (h.to_idle rfl rfl rfl)

theorem cfgRecord_indexesInside {s : State} (h : IndexesInside s) (hop : ¬ receives s.curOp) (a : Bool) :
    IndexesInside (cfgRecord s a) := by
  obtain ⟨k, hk, heq⟩ | ⟨_, heq⟩ := cfgRecord_cases s a <;> rw [heq]
  · exact .of_not_receives hop h.frameLen fun _ => nextTemplate_lt hk
  · exact h.to_idle rfl rfl rfl

theorem cfgWait_safe {s : State} (h : IndexesInside s) (hop : ¬ receives s.curOp)
    (hk : s.kIdx < s.par.templates.length) : IndexesSafe (cfgWait s) := by
  unfold cfgWait
  rw [List.getElem?_eq_getElem hk]
  dsimp only
  split <;> rename_i hw
  · exact .of_inside (ackWait_indexesInside h hop (fun _ => hk) hw)
  · obtain ⟨_, _, hcur, _⟩ := ackWait_unchanged hw
    exact .of_inside (cfgRecord_indexesInside (ackWait_indexesInside h hop (fun _ => hk) hw) (by rwa [hcur]) _)

theorem execCfgSeq_safe {s : State} (h : IndexesInside s) (hb : s.status.busy = true) (hop : s.curOp = 0x0C) :
    IndexesSafe (execCfgSeq s) := by
  have hrecv : ¬ receives s.curOp := by simp [receives, hop]
  unfold execCfgSeq
  split
  · exact cfgStart_safe h hrecv
  · rename_i hphase
    have hk := h.template hb hop hphase
    split
    · exact cfgEncode_safe hrecv hk
    · rw [txFrame_of_inside h]
      exact .of_inside (.of_not_receives hrecv h.frameLen fun _ => hk)
    · exact cfgWait_safe h hrecv hk

/-! ## The receive and its operations -/

/-- `DMX_CNT < DMX_LEN ≤ cap` in the PAYLOAD state (42_payload_demux.md R132). -/
def Dmx.PayloadInside (d : Dmx) (cap : Nat) : Prop :=
  d.st = .payload → d.cnt.toNat < d.len.toNat ∧ d.len.toNat ≤ cap

/-- Outside the PAYLOAD state there is nothing to bound. -/
theorem Dmx.PayloadInside.of_st_ne {d : Dmx} {cap : Nat} (h : d.st ≠ .payload) : d.PayloadInside cap :=
  fun hst => absurd hst h

/-- The checksum of a byte touches the two checksum fields alone (R138). -/
theorem Dmx.accIf_unchanged (v : Bool) (d : Dmx) (b : Byte) :
    (d.accIf v b).st = d.st ∧ (d.accIf v b).len = d.len ∧ (d.accIf v b).cnt = d.cnt := by
  cases v <;> exact ⟨rfl, rfl, rfl⟩

/-- The LEN_HI state enters PAYLOAD only past the capacity guard and with bytes to come (R133, R134). -/
theorem dmxLenHi_payloadInside (v : Bool) (cap : Half) {d : Dmx} (hst : d.st = .lenHi) (b : Byte) :
    (dmxLenHi v cap d b).next.PayloadInside cap.toNat := by
  obtain ⟨hst', _⟩ := Dmx.accIf_unchanged v d b
  simp only [dmxLenHi]
  split
  · exact .of_st_ne (by simp [hst', hst])
  · rename_i hguard
    split
    · exact .of_st_ne (by cases v <;> simp [dmxGo, hst', hst])
    · rename_i hne
      exact fun _ => ⟨Nat.pos_of_ne_zero fun h => hne (BitVec.eq_of_toNat_eq h), Nat.le_of_not_lt hguard⟩

/-- The PAYLOAD state stays in PAYLOAD only below the declared length (R132). -/
theorem dmxPayload_payloadInside {v : Bool} {cap : Nat} {d : Dmx} {b : Byte} (hst : d.st = .payload)
    (hd : d.PayloadInside cap) (hr : (dmxPayload v d b).result = none) :
    (dmxPayload v d b).next.PayloadInside cap := by
  obtain ⟨hlt, hle⟩ := hd hst
  have hsum : (d.cnt + 1).toNat = d.cnt.toNat + 1 := by have := d.len.isLt; bv_omega
  obtain ⟨_, hlen, hcnt⟩ := Dmx.accIf_unchanged v d b
  simp only [dmxPayload, hlen, hcnt] at hr ⊢
  by_cases hend : d.cnt + 1 = d.len
  · simp only [hend, if_true] at hr ⊢
    cases v with
    | false => cases hr
    | true => exact .of_st_ne (by simp)
  · simp only [hend, if_false]
    have hne : (d.cnt + 1).toNat ≠ d.len.toNat := fun h => hend (BitVec.eq_of_toNat_eq h)
    exact fun _ => ⟨by dsimp only; omega, hle⟩

/-- A byte that does not end the receive keeps the demultiplexer's indexes inside. -/
theorem dmxStep_payloadInside {v : Bool} {c i : Byte} {cap : Half} {d : Dmx} {b : Byte}
    (hd : d.PayloadInside cap.toNat) (hr : (dmxStep v c i cap d b).result = none) :
    (dmxStep v c i cap d b).next.PayloadInside cap.toNat := by
  unfold dmxStep at hr ⊢
  cases hst : d.st <;> simp only [hst] at hr ⊢
  case lenHi => exact dmxLenHi_payloadInside v cap hst b
  case payload => exact dmxPayload_payloadInside hst hd hr
  -- A header or checksum state moves to another such state.
  all_goals
    refine .of_st_ne ?_
    simp only [dmxGo]
    (repeat' split) <;> simp [hst]

/-- What an engine step of a receive leaves alone of the sequencing state. -/
theorem recvWait_unchanged {s s' : State} {c i : Byte} {cap : Half} {r : Option RecvResult}
    (h : s.recvWait c i cap = .ok (s', r)) :
    s'.inst = s.inst ∧ s'.frameLen = s.frameLen ∧ s'.status = s.status ∧ s'.curOp = s.curOp ∧
    s'.argCap = s.argCap ∧ s'.phase = s.phase ∧ s'.kIdx = s.kIdx := by
  obtain ⟨_, rfl, _⟩ | ⟨_, _, rfl, _⟩ | ⟨_, _, _, rfl, _⟩ | ⟨_, _, b, rest, _, _, _, rfl⟩ := recvWait_cases h <;>
    exact ⟨rfl, rfl, rfl, rfl, rfl, rfl, rfl⟩

/-- A receive that is over waits no more. -/
theorem recvWait_waiting_of_result {s s' : State} {c i : Byte} {cap : Half} {r : RecvResult}
    (h : s.recvWait c i cap = .ok (s', some r)) : s'.waiting = false := by
  obtain ⟨_, _, hr⟩ | ⟨_, _, rfl, _⟩ | ⟨_, _, _, _, hr⟩ | ⟨_, _, b, rest, _, _, _, rfl⟩ := recvWait_cases h
  · cases hr
  · rfl
  · cases hr
  · rfl

/-- A receive that goes on keeps the demultiplexer's indexes inside. -/
theorem recvWait_payloadInside {s s' : State} {c i : Byte} {cap : Half} {r : Option RecvResult}
    (hd : s.waiting = true → s.dmx.PayloadInside cap.toNat) (h : s.recvWait c i cap = .ok (s', r))
    (hw' : s'.waiting = true) : s'.dmx.PayloadInside cap.toNat := by
  obtain ⟨_, rfl, _⟩ | ⟨_, _, rfl, _⟩ | ⟨hw, _, _, rfl, _⟩ | ⟨hw, _, b, rest, _, hr, _, rfl⟩ := recvWait_cases h
  · intro hst
    cases hst
  · cases hw'
  · exact hd hw
  · have hnone : r = none := Option.isNone_iff_eq_none.1 hw'
    exact dmxStep_payloadInside (hd hw) (hr.symm.trans hnone)

/-- An engine step of a receive whose capacity fits RESP does not fault and keeps the invariant. -/
theorem recvWait_indexesInside {s : State} {cap : Half} (h : IndexesInside s) (hb : s.status.busy = true)
    (hop : receives s.curOp) (hcap : cap.toNat = capacityOf s) (hfits : cap.toNat ≤ s.par.respSize) (c i : Byte) :
    ∃ s' r, s.recvWait c i cap = .ok (s', r) ∧ IndexesInside s' := by
  have hd : s.waiting = true → s.dmx.PayloadInside cap.toNat := fun hw hst => by
    rw [hcap]; exact h.payload hb hop hw hst
  cases hrun : s.recvWait c i cap with
  | error f =>
    obtain ⟨hw, hst, hout⟩ := recvWait_error hrun
    obtain ⟨hlt, hle⟩ := hd hw hst
    simp only [bufferSize] at hout
    omega
  | ok out =>
    obtain ⟨s', r⟩ := out
    obtain ⟨hinst, hlen, hstatus, hcur, harg, hphase, hk⟩ := recvWait_unchanged hrun
    have hcap' : capacityOf s' = cap.toNat := by simp only [capacityOf, State.par, hcur, hinst, harg, hcap]
    refine ⟨s', r, rfl, ?_, ?_, ?_, ?_, ?_⟩
    · simpa only [State.par, hinst, hlen] using h.frameLen
    · intro _ _ hw' hst'
      rw [hcap']
      exact recvWait_payloadInside hd hrun hw' hst'
    · intro _ h5 _
      have hne : s.curOp ≠ 0x0B := by rw [← hcur, h5]; decide
      simpa only [hcap, capacityOf, if_neg hne, harg, State.par, hinst] using hfits
    · simpa only [State.par, hinst, hstatus, hcur, harg, hphase] using h.pollCap
    · simpa only [State.par, hinst, hstatus, hcur, hphase, hk] using h.template

/-- The receive of RECV_PAYLOAD and POLL, whose capacity is ARG_CAP. -/
theorem recvStepFinish_safe {s : State} (h : IndexesInside s) (hb : s.status.busy = true)
    (hop : s.curOp = 0x05 ∨ s.curOp = 0x06) (hfits : s.argCap.toNat ≤ s.par.respSize) :
    IndexesSafe (recvStepFinish s) := by
  have hrecv : receives s.curOp := hop.imp_right .inl
  have hne : s.curOp ≠ 0x0B := by rcases hop with h | h <;> rw [h] <;> decide
  have hcap : s.argCap.toNat = capacityOf s := (if_neg hne).symm
  obtain ⟨s', r, hrun, h'⟩ := recvWait_indexesInside h hb hrecv hcap hfits s.argClass s.argId
  unfold recvStepFinish
  rw [hrun]
  cases r with
  | none => exact .of_inside h'
  | some r => exact .of_inside (h'.to_idle rfl rfl rfl)

/-- The argument check of RECV_PAYLOAD and POLL (30_encoding.md R78). -/
theorem argCap_le_of_not_badCap {s : State} (h : ¬ s.badCap = true) : s.argCap.toNat ≤ s.par.respSize := by
  simpa [State.badCap] using h

theorem execRecvPayload_safe {s : State} (h : IndexesInside s) (hb : s.status.busy = true) (hop : s.curOp = 0x05) :
    IndexesSafe (execRecvPayload s) := by
  unfold execRecvPayload
  split
  · exact .of_inside (h.to_idle rfl rfl rfl)
  · rename_i hcheck
    refine recvStepFinish_safe h hb (.inl hop) ?_
    cases hw : s.waiting with
    | true => exact h.recvCap hb hop hw
    | false => exact argCap_le_of_not_badCap fun hbad => hcheck ⟨hw, hbad⟩

/-- A poll request leaves the receive of the operation as it is and puts an 8-byte frame into FRAME. -/
theorem sendPollRequest_indexesInside {s : State} (h : IndexesInside s) (hop : s.curOp ≠ 0x0C)
    (hcap : s.curOp = 0x06 → s.argCap.toNat ≤ s.par.respSize) (c i : Byte) :
    IndexesInside (s.sendPollRequest c i) where
  frameLen := encodedLen_le (Nat.zero_le s.par.txpSize)
  payload := h.payload
  recvCap := h.recvCap
  pollCap := fun _ h6 _ => hcap h6
  template := fun _ h12 => absurd h12 hop

theorem execPoll_safe {s : State} (h : IndexesInside s) (hb : s.status.busy = true) (hop : s.curOp = 0x06) :
    IndexesSafe (execPoll s) := by
  unfold execPoll
  split
  · split
    · exact .of_inside (h.to_idle rfl rfl rfl)
    · rename_i hcheck
      exact .of_inside (sendPollRequest_indexesInside h (by simp [hop]) (fun _ => argCap_le_of_not_badCap hcheck) _ _)
  · rename_i hphase
    exact recvStepFinish_safe h hb (.inr hop) (h.pollCap hb hop hphase)

/-- The capacity of an acquisition's polls is RESP_SIZE: 16 bits hold it. -/
theorem acquireCap_toNat (s : State) : s.acquireCap.toNat = s.par.respSize :=
  Nat.mod_eq_of_lt (Nat.lt_succ_of_le s.inst.respSize_le)

/-- What the decode of a Gen1 message leaves alone of the sequencing state. -/
theorem decodeGen1_unchanged (s : State) (j : Nat) :
    (s.decodeGen1 j).inst = s.inst ∧ (s.decodeGen1 j).frameLen = s.frameLen ∧
    (s.decodeGen1 j).curOp = s.curOp ∧ (s.decodeGen1 j).waiting = s.waiting := by
  unfold State.decodeGen1
  split <;> exact ⟨rfl, rfl, rfl, rfl⟩

/-- The end of a Gen1 poll keeps the frame, the operation and, if no receive is open, that. -/
theorem acquireEndGen1_unchanged (s : State) (j : Nat) (r : RecvResult) :
    (acquireEndGen1 s j r).inst = s.inst ∧ (acquireEndGen1 s j r).frameLen = s.frameLen ∧
    (acquireEndGen1 s j r).curOp = s.curOp ∧ (s.waiting = false → (acquireEndGen1 s j r).waiting = false) := by
  simp only [acquireEndGen1]
  split <;> simp [decodeGen1_unchanged]

/-- The end of a poll of ACQUIRE_FIX is the end of the operation, or it goes on to the next poll with no receive
open. -/
theorem acquireEnd_indexesInside {s : State} (h : IndexesInside s) (hop : s.curOp = 0x0B) (hw : s.waiting = false)
    (r : RecvResult) : IndexesInside (acquireEnd s r) := by
  unfold acquireEnd
  split
  · simp only [acquireEndGen2]
    split <;> exact h.to_idle rfl rfl rfl
  · obtain ⟨hinst, hlen, hcur, hwait⟩ := acquireEndGen1_unchanged s (s.phase / 3) r
    exact {
      frameLen := by simpa only [State.par, hinst, hlen] using h.frameLen
      payload := fun _ _ hwaiting => by simp [hwait hw] at hwaiting
      recvCap := fun _ _ hwaiting => by simp [hwait hw] at hwaiting
      pollCap := fun _ h6 => by simp [hcur, hop] at h6
      template := fun _ h12 => by simp [hcur, hop] at h12 }

/-- The first step of an acquisition sets its accumulators alone. -/
theorem acquireInit_sequencing (s : State) : (acquireInit s).sequencing = s.sequencing := by
  unfold acquireInit
  split <;> rfl

theorem execAcquireFix_safe {s : State} (h : IndexesInside s) (hb : s.status.busy = true) (hop : s.curOp = 0x0B) :
    IndexesSafe (execAcquireFix s) := by
  simp only [execAcquireFix]
  split
  · have hinit := acquireInit_sequencing s
    have hcur : (acquireInit s).curOp = 0x0B := by
      simp only [State.sequencing, Prod.mk.injEq] at hinit
      obtain ⟨_, _, _, hcur, _⟩ := hinit
      exact hcur.trans hop
    exact .of_inside (sendPollRequest_indexesInside (h.of_sequencing_eq hinit) (by simp [hcur]) (by simp [hcur]) _ _)
  · have hcap : s.acquireCap.toNat = capacityOf s := by rw [acquireCap_toNat, capacityOf, if_pos hop]
    obtain ⟨s', r, hrun, h'⟩ := recvWait_indexesInside h hb (.inr (.inr hop)) hcap (acquireCap_toNat s).le
      (acquireTarget s.par s.variant (s.phase / 3)).1 (acquireTarget s.par s.variant (s.phase / 3)).2
    rw [hrun]
    cases r with
    | none => exact .of_inside h'
    | some r =>
      obtain ⟨_, _, _, hcur, _⟩ := recvWait_unchanged hrun
      exact .of_inside (acquireEnd_indexesInside h' (hcur.trans hop) (recvWait_waiting_of_result hrun) r)

/-! ## The moves of the agents -/

/-- One engine step of the operation in CUR_OP. -/
theorem exec_decodeOp_safe {s : State} (h : IndexesInside s) (hb : s.status.busy = true) :
    IndexesSafe (exec (decodeOp s.curOp) s) := by
  unfold decodeOp
  split <;> rename_i hop
  · exact execEncode_safe h
  · exact execTransmit_safe h
  · exact execSendCmd_safe h (BitVec.eq_of_toNat_eq hop)
  · exact execAckWait_safe h (BitVec.eq_of_toNat_eq hop)
  · exact execRecvPayload_safe h hb (BitVec.eq_of_toNat_eq hop)
  · exact execPoll_safe h hb (BitVec.eq_of_toNat_eq hop)
  · exact .of_inside (h.to_idle rfl rfl rfl)
  · exact .of_inside (h.to_idle rfl rfl rfl)
  · exact .of_inside (h.to_idle rfl rfl rfl)
  · exact .of_inside (h.to_idle rfl rfl rfl)
  · exact execAcquireFix_safe h hb (BitVec.eq_of_toNat_eq hop)
  · exact execCfgSeq_safe h hb (BitVec.eq_of_toNat_eq hop)
  · exact .of_inside (h.to_idle rfl rfl rfl)

theorem engineMove_safe {s : State} (h : IndexesInside s) : IndexesSafe (engineMove s) := by
  cases hb : s.status.busy with
  | true => rw [engineMove_busy hb]; exact exec_decodeOp_safe h hb
  | false => rw [engineMove_idle hb]; exact .of_inside h

/-- The receiver's move does not fault: what arrives is a unit of the wire or loose bytes. -/
theorem receiverMove_ne_fault (bs : List Byte) (s : State) (f : Fault) : receiverMove bs s ≠ .fault f := by
  unfold receiverMove
  split
  · rename_i u hu
    obtain ⟨c, i, pl, a, b, rfl⟩ | ⟨c, i, tail, rfl⟩ | ⟨c, i, tail, rfl⟩ := decode_received_cases hu <;>
      exact fun hf => by cases hf
  · exact fun hf => by cases hf

theorem receiverMove_safe {s : State} (h : IndexesInside s) (bs : List Byte) : IndexesSafe (receiverMove bs s) where
  next := fun t ht => by
    obtain ⟨arrived, rfl⟩ := receiverMove_rx ht
    exact h.of_sequencing_eq rfl
  noFault := receiverMove_ne_fault bs s

/-- A host's access does not fault: what the model does not admit it refuses. -/
theorem hostAccess_ne_fault (a : Access) (s : State) (f : Fault) : hostAccess a s ≠ .fault f := by
  cases a with
  | readReg index => simp only [hostAccess, hostReadReg]; (repeat' split) <;> simp
  | writeReg index w => simp only [hostAccess, hostWriteReg]; (repeat' split) <;> simp
  | readBuf b i => simp only [hostAccess, hostReadBuf]; (repeat' split) <;> simp
  | writeBuf b i v => simp only [hostAccess, hostWriteBuf]; (repeat' split) <;> simp
  | wait => simp [hostAccess]

theorem hostMove_ne_fault (s : State) (f : Fault) : hostMove s ≠ .fault f := by
  unfold hostMove
  split
  · split
    · simp
    · exact hostAccess_ne_fault _ _ _
  · simp

/-- A host register write while idle: an issue starts at PHASE 0 with no wait open, any other write leaves the
block idle. -/
theorem regWrite_indexesInside {s t : State} {index : BitVec 5} {w : Word} (hwrite : s.regWrite index w = some t)
    (hidle : s.status.busy = false) (h : IndexesInside s) : IndexesInside t := by
  obtain rfl | rfl | ⟨c, i, pl, cap, tm, tmpl, rfl⟩ := regWrite_cases hwrite
  · exact {
      frameLen := h.frameLen
      payload := fun _ _ hw => by cases hw
      recvCap := fun _ _ hw => by cases hw
      pollCap := fun _ _ hp => absurd rfl hp
      template := fun _ _ hp => absurd rfl hp }
  · exact h
  · exact h.to_idle hidle rfl rfl

theorem hostMove_safe {s : State} (h : IndexesInside s) : IndexesSafe (hostMove s) where
  next := fun t ht => by
    obtain ⟨_, rfl⟩ | ⟨rest, r, rfl⟩ | ⟨rest, rfl⟩ | ⟨hidle, rest, index, w, _, hw⟩ |
      ⟨hidle, rest, i, v, _, _, rfl⟩ | ⟨hidle, rest, i, v, _, _, rfl⟩ := hostMove_cases ht
    · exact h
    · exact h.of_sequencing_eq rfl
    · exact h.of_sequencing_eq rfl
    · exact regWrite_indexesInside hw hidle (h.of_sequencing_eq rfl)
    · exact h.to_idle hidle rfl rfl
    · exact h.to_idle hidle rfl rfl
  noFault := hostMove_ne_fault s

theorem runMove_safe {s : State} (h : IndexesInside s) (m : Move) : IndexesSafe (runMove m s) := by
  cases m with
  | host => exact hostMove_safe h
  | engine => exact engineMove_safe h
  | receiver bs => exact receiverMove_safe h bs
  | clock ms => exact .of_inside (h.of_sequencing_eq rfl)
  | reset => exact .of_inside (.of_idle rfl (Nat.zero_le _))

/-- Every step from a state whose indexes are inside is safe. -/
theorem step_safe {s : State} (h : IndexesInside s) : IndexesSafe (step s) := by
  obtain ⟨m, rest, _, hstep⟩ | ⟨_, hstep⟩ := step_cases s <;> rw [hstep]
  · have hrest : IndexesInside { s with schedule := rest } := h.of_sequencing_eq rfl
    exact runMove_safe hrest m
  · have hdraw : IndexesInside s.freeDraw := h.of_sequencing_eq rfl
    split
    · rename_i hb
      exact exec_decodeOp_safe hdraw hb
    · exact hostMove_safe hdraw

/-- Settles O50: every move of every agent keeps the sequencing state inside. -/
theorem stepKeepsIndexesInside : Obligations.StepKeepsIndexesInside :=
  fun _ t h => (step_safe h).next t

/-- Settles O51: the one fault, `indexOutside`, needs an index that the invariant rules out. -/
theorem stepNeverFaults : Obligations.StepNeverFaults :=
  fun _ f h => (step_safe h).noFault f

end Sys2Proof.Machine
end

section
/-! What one instruction can do, said once: each operation's engine step is inverted to the named updates it is
made of, and every one of them either goes on with STATUS as it is or ends in `finish` (spec/00_scope.md R15);
in both cases what is the host's stays (spec/10_state.md R21, R29, spec/20_memory.md R54). -/

namespace Sys2Proof.Machine

/-! ## The steps of the operations, inverted -/

/-- A write of FRAME[0 .. FRAME_LEN-1] that does not fault (40_command_encoder.md R95). -/
theorem txFrame_eq {s t : State} (h : s.txFrame = .ok t) :
    t = s.txWrite (Memory.readRange s.frame 0 s.frameLen.toNat) := by
  unfold State.txFrame at h
  split at h <;> cases h
  rfl

theorem execEncode_cases {s t : State} (h : execEncode s = .next t) :
    t = s.finish false .illegal ∨ t = (s.encodeToFrame s.argClass s.argId s.txpPayload).finish true .none := by
  unfold execEncode at h
  split at h <;> cases h
  · exact .inl rfl
  · exact .inr rfl

theorem execTransmit_cases {s t : State} (h : execTransmit s = .next t) :
    t = s.finish false .illegal ∨
    t = (s.txWrite (Memory.readRange s.frame 0 s.frameLen.toNat)).finish true .none := by
  unfold execTransmit at h
  split at h
  · cases h; exact .inl rfl
  · split at h
    · rename_i u hu
      cases h
      exact .inr (by rw [txFrame_eq hu])
    · cases h

/-- One engine step of the ACK wait of SEND_CMD, and its end (40_command_encoder.md R97). -/
theorem sendCmdWait_cases (s : State) :
    s.ackWait s.argClass s.argId = (sendCmdWait s, none) ∨
    ∃ u a, s.ackWait s.argClass s.argId = (u, some a) ∧ sendCmdWait s = (u.setAcked a).finishOkOrFail a := by
  unfold sendCmdWait
  split <;> rename_i hw
  · exact .inl hw
  · exact .inr ⟨_, _, hw, rfl⟩

/-- ACK_WAIT is PHASE 2 of SEND_CMD (41_ack_matcher.md R115, 40_command_encoder.md R97). -/
theorem execAckWait_eq (s : State) : execAckWait s = .next (sendCmdWait s) := by
  unfold execAckWait sendCmdWait
  generalize s.ackWait s.argClass s.argId = out
  obtain ⟨u, _ | a⟩ := out <;> rfl

theorem execSendCmd_cases {s t : State} (h : execSendCmd s = .next t) :
    t = s.finish false .illegal ∨
    t = { s.encodeToFrame s.argClass s.argId s.txpPayload with phase := 1 } ∨
    t = { s.txWrite (Memory.readRange s.frame 0 s.frameLen.toNat) with phase := 2 } ∨
    t = sendCmdWait s := by
  unfold execSendCmd at h
  split at h
  · cases h
    unfold sendCmdEncode
    split
    · exact .inl rfl
    · exact .inr (.inl rfl)
  · split at h
    · rename_i u hu
      cases h
      exact .inr (.inr (.inl (by rw [txFrame_eq hu])))
    · cases h
  · cases h
    exact .inr (.inr (.inr rfl))

/-- One engine step of the receive of RECV_PAYLOAD and POLL, and its end (42_payload_demux.md R136). -/
theorem recvStepFinish_cases {s t : State} (h : recvStepFinish s = .next t) :
    s.recvWait s.argClass s.argId s.argCap = .ok (t, none) ∨
    ∃ u r, s.recvWait s.argClass s.argId s.argCap = .ok (u, some r) ∧ t = u.recvFinish r := by
  unfold recvStepFinish at h
  split at h <;> rename_i hw <;> cases h
  · exact .inl hw
  · exact .inr ⟨_, _, hw, rfl⟩

theorem execRecvPayload_cases {s t : State} (h : execRecvPayload s = .next t) :
    t = s.finish false .illegal ∨ recvStepFinish s = .next t := by
  unfold execRecvPayload at h
  split at h
  · cases h; exact .inl rfl
  · exact .inr h

theorem execPoll_cases {s t : State} (h : execPoll s = .next t) :
    t = s.finish false .illegal ∨ t = s.sendPollRequest s.argClass s.argId ∨ recvStepFinish s = .next t := by
  unfold execPoll at h
  split at h
  · split at h <;> cases h
    · exact .inl rfl
    · exact .inr (.inl rfl)
  · exact .inr (.inr h)

theorem execAcquireFix_cases {s t : State} (h : execAcquireFix s = .next t) :
    (∃ c i, t = (acquireInit s).sendPollRequest c i) ∨
    (∃ c i, s.recvWait c i s.acquireCap = .ok (t, none)) ∨
    (∃ c i u r, s.recvWait c i s.acquireCap = .ok (u, some r) ∧ t = acquireEnd u r) := by
  simp only [execAcquireFix] at h
  split at h
  · cases h; exact .inl ⟨_, _, rfl⟩
  · split at h <;> rename_i hw <;> cases h
    · exact .inr (.inl ⟨_, _, hw⟩)
    · exact .inr (.inr ⟨_, _, _, _, hw, rfl⟩)

theorem cfgEncode_cases {s t : State} {k : Nat} (h : cfgEncode s k = .next t) :
    ∃ m, s.par.templates[k]? = some m ∧
      t = { s.encodeToFrame m.cls m.ident m.payload with kIdx := k, phase := 3 * k + 1 } := by
  unfold cfgEncode at h
  split at h <;> rename_i hm <;> cases h
  exact ⟨_, hm, rfl⟩

theorem cfgStart_cases {s t : State} (h : cfgStart s = .next t) :
    t = cfgFinish { s with accOk := true, attMask := 0, okMask := 0 } ∨
    ∃ k, cfgEncode { s with accOk := true, attMask := 0, okMask := 0 } k = .next t := by
  simp only [cfgStart] at h
  split at h
  · exact .inr ⟨_, h⟩
  · cases h; exact .inl rfl

theorem cfgWait_cases {s t : State} (h : cfgWait s = .next t) :
    (∃ c i, s.ackWait c i = (t, none)) ∨ ∃ c i u a, s.ackWait c i = (u, some a) ∧ t = cfgRecord u a := by
  unfold cfgWait at h
  split at h
  · split at h <;> rename_i hw <;> cases h
    · exact .inl ⟨_, _, hw⟩
    · exact .inr ⟨_, _, _, _, hw, rfl⟩
  · cases h

theorem execCfgSeq_cases {s t : State} (h : execCfgSeq s = .next t) :
    cfgStart s = .next t ∨ cfgEncode s s.kIdx = .next t ∨
    t = { s.txWrite (Memory.readRange s.frame 0 s.frameLen.toNat) with phase := s.phase + 1 } ∨
    cfgWait s = .next t := by
  unfold execCfgSeq at h
  split at h
  · exact .inl h
  · split at h
    · exact .inr (.inl h)
    · split at h
      · rename_i u hu
        cases h
        obtain rfl := txFrame_eq hu
        exact .inr (.inr (.inl rfl))
      · cases h
    · exact .inr (.inr (.inr h))

/-! ## The waits -/

/-- What no instruction writes (10_state.md R21, R29, 20_memory.md R54). -/
def State.hostView (s : State) : Byte × Byte × Byte × Byte × Half × Half × Word × Byte × Memory × Variant × Instance ×
    Nat × List Access × List Move × List Reading × Nat :=
  (s.op, s.curOp, s.argClass, s.argId, s.argPlen, s.argCap, s.argTimeout, s.argTmpl, s.txp, s.variant, s.inst, s.now,
    s.program, s.schedule, s.reads, s.draws)

/-- The result registers, FRAME and the transmit stream, which change in no wait (10_state.md R33). -/
def State.resultView (s : State) : FixRecord × AcqStatus × CfgStatus × Half × Status × Memory × Word × List (List Byte) :=
  (s.fixReg, s.acqStatus, s.cfgStatus, s.resultLen, s.status, s.frame, s.frameLen, s.tx)

/-- What a wait of either kind does in one engine step: at most one byte leaves the receive stream. -/
structure WaitStep (s t : State) : Prop where
  host : t.hostView = s.hostView
  results : t.resultView = s.resultView
  rx : t.rx = s.rx ∨ ∃ b, s.rx = b :: t.rx

theorem ackWait_waitStep {s t : State} {c i : Byte} {r : Option Bool} (h : s.ackWait c i = (t, r)) : WaitStep s t := by
  obtain ⟨_, rfl, _⟩ | ⟨_, _, rfl, _⟩ | ⟨_, _, _, rfl, _⟩ | ⟨_, _, b, rest, hrx, _, rfl⟩ := ackWait_cases h
  · exact ⟨rfl, rfl, .inl rfl⟩
  · exact ⟨rfl, rfl, .inl rfl⟩
  · exact ⟨rfl, rfl, .inl rfl⟩
  · exact ⟨rfl, rfl, .inr ⟨b, hrx⟩⟩

/-- The matcher does not reach RESP (20_memory.md R54). -/
theorem ackWait_resp {s t : State} {c i : Byte} {r : Option Bool} (h : s.ackWait c i = (t, r)) : t.resp = s.resp := by
  obtain ⟨_, rfl, _⟩ | ⟨_, _, rfl, _⟩ | ⟨_, _, _, rfl, _⟩ | ⟨_, _, b, rest, _, _, rfl⟩ := ackWait_cases h <;> rfl

theorem recvWait_waitStep {s t : State} {c i : Byte} {cap : Half} {r : Option RecvResult}
    (h : s.recvWait c i cap = .ok (t, r)) : WaitStep s t := by
  obtain ⟨_, rfl, _⟩ | ⟨_, _, rfl, _⟩ | ⟨_, _, _, rfl, _⟩ | ⟨_, _, b, rest, hrx, _, _, rfl⟩ := recvWait_cases h
  · exact ⟨rfl, rfl, .inl rfl⟩
  · exact ⟨rfl, rfl, .inl rfl⟩
  · exact ⟨rfl, rfl, .inl rfl⟩
  · exact ⟨rfl, rfl, .inr ⟨b, hrx⟩⟩

theorem WaitStep.status {s t : State} (h : WaitStep s t) : t.status = s.status := by
  have hresults := h.results
  simp only [State.resultView, Prod.mk.injEq] at hresults
  obtain ⟨_, _, _, _, hstatus, _⟩ := hresults
  exact hstatus

/-! ## Going on or finishing -/

/-- One step of an instruction: it goes on with STATUS untouched, or it ends in the one update of `finish`, whose
OK and ERR agree (00_scope.md R15, 60_exceptions.md R201). What is the host's stays in both. -/
inductive InstrStep (s : State) : State → Prop
  | goesOn {t : State} (host : t.hostView = s.hostView) (status : t.status = s.status) : InstrStep s t
  | ends {u : State} {ok : Bool} {err : ErrCode} (host : u.hostView = s.hostView)
      (agree : ok = true ↔ err = .none) : InstrStep s (u.finish ok err)

theorem InstrStep.host {s t : State} (h : InstrStep s t) : t.hostView = s.hostView := by
  cases h with
  | goesOn host _ => exact host
  | ends host _ => exact host

theorem InstrStep.status {s t : State} (h : InstrStep s t) :
    t.status = s.status ∨
    ∃ ok err acked, (ok = true ↔ err = .none) ∧ t.status = finished ok err acked := by
  cases h with
  | goesOn _ status => exact .inl status
  | ends _ agree => exact .inr ⟨_, _, _, agree, rfl⟩

/-- `finish(b, b ? NONE : FAIL)` is legal (60_exceptions.md R200). -/
theorem InstrStep.endsOkOrFail {s u : State} (b : Bool) (host : u.hostView = s.hostView) :
    InstrStep s (u.finishOkOrFail b) :=
  .ends host (by cases b <;> decide)

theorem InstrStep.illegal (s : State) : InstrStep s (s.finish false .illegal) := .ends rfl (by decide)

theorem InstrStep.success {s u : State} (host : u.hostView = s.hostView) : InstrStep s (u.finish true .none) :=
  .ends host (by decide)

theorem WaitStep.instrStep {s t : State} (h : WaitStep s t) : InstrStep s t := .goesOn h.host h.status

theorem sendCmdWait_instrStep (s : State) : InstrStep s (sendCmdWait s) := by
  obtain hw | ⟨u, a, hw, heq⟩ := sendCmdWait_cases s
  · exact (ackWait_waitStep hw).instrStep
  · rw [heq]
    exact .endsOkOrFail a (ackWait_waitStep hw).host

theorem execSendCmd_instrStep {s t : State} (h : execSendCmd s = .next t) : InstrStep s t := by
  obtain rfl | rfl | rfl | rfl := execSendCmd_cases h
  · exact .illegal s
  · exact .goesOn rfl rfl
  · exact .goesOn rfl rfl
  · exact sendCmdWait_instrStep s

/-- A receive's OK and ERR agree (42_payload_demux.md R136). -/
theorem RecvResult.succeeded_iff (r : RecvResult) : r.succeeded = true ↔ r.err = .none := by
  cases r <;> simp [RecvResult.succeeded, RecvResult.err]

theorem recvStepFinish_instrStep {s t : State} (h : recvStepFinish s = .next t) : InstrStep s t := by
  obtain hw | ⟨u, r, hw, rfl⟩ := recvStepFinish_cases h
  · exact (recvWait_waitStep hw).instrStep
  · have hhost : ({ u with resultLen := r.length } : State).hostView = s.hostView := (recvWait_waitStep hw).host
    exact .ends hhost r.succeeded_iff

theorem execPoll_instrStep {s t : State} (h : execPoll s = .next t) : InstrStep s t := by
  obtain rfl | rfl | hrecv := execPoll_cases h
  · exact .illegal s
  · exact .goesOn rfl rfl
  · exact recvStepFinish_instrStep hrecv

/-- The ERR code of a Gen1 acquisition agrees with its OK (43_fix_decoder.md R171). -/
theorem acquireErr_eq_none_iff (acc capSeen : Bool) : acc = true ↔ acquireErr acc capSeen = .none := by
  cases acc <;> cases capSeen <;> decide

/-- What the decode of a Gen1 message writes: the FIX registers (43_fix_decoder.md R167 to R169). -/
theorem decodeGen1_eq (s : State) (j : Nat) : ∃ f, s.decodeGen1 j = { s with fixReg := f } := by
  unfold State.decodeGen1
  split <;> exact ⟨_, rfl⟩

/-- The end of the Gen2 poll, with what it records (43_fix_decoder.md R170). -/
theorem acquireEndGen2_eq (s : State) (r : RecvResult) : ∃ f a,
    acquireEndGen2 s r =
      State.finish { s with resultLen := r.length, fixReg := f, acqStatus := a } r.succeeded r.err := by
  simp only [acquireEndGen2]
  split
  · exact ⟨_, _, rfl⟩
  · exact ⟨s.fixReg, _, rfl⟩

/-- The end of a Gen1 poll, with what it records: the end of the acquisition, or the next poll (43_fix_decoder.md
R171). -/
theorem acquireEndGen1_cases (s : State) (j : Nat) (r : RecvResult) : ∃ f a acc cap,
    acquireEndGen1 s j r =
      State.finish { s with resultLen := r.length, fixReg := f, acqStatus := a, accOk := acc, accCap := cap } acc
        (acquireErr acc cap) ∨
    acquireEndGen1 s j r =
      { s with resultLen := r.length, fixReg := f, acqStatus := a, accOk := acc, accCap := cap
               phase := 3 * (j + 1) } := by
  obtain ⟨f, hf⟩ := decodeGen1_eq
    { s with resultLen := r.length, accCap := s.accCap || decide (r = RecvResult.capExceeded) } j
  simp only [acquireEndGen1, hf]
  split
  · exact ⟨f, _, _, _, .inl rfl⟩
  · exact ⟨f, _, _, _, .inr rfl⟩

theorem acquireEnd_instrStep {s u : State} (r : RecvResult) (hhost : u.hostView = s.hostView)
    (hstatus : u.status = s.status) : InstrStep s (acquireEnd u r) := by
  unfold acquireEnd
  split
  · obtain ⟨f, a, heq⟩ := acquireEndGen2_eq u r
    rw [heq]
    exact .ends hhost r.succeeded_iff
  · obtain ⟨f, a, acc, cap, heq | heq⟩ := acquireEndGen1_cases u (u.phase / 3) r <;> rw [heq]
    · exact .ends hhost (acquireErr_eq_none_iff acc cap)
    · exact .goesOn hhost hstatus

/-- The first step of an acquisition writes its accumulators alone (43_fix_decoder.md R171). -/
theorem acquireInit_eq (s : State) : ∃ acc cap, acquireInit s = { s with accOk := acc, accCap := cap } := by
  unfold acquireInit
  split <;> exact ⟨_, _, rfl⟩

theorem execAcquireFix_instrStep {s t : State} (h : execAcquireFix s = .next t) : InstrStep s t := by
  obtain ⟨c, i, rfl⟩ | ⟨c, i, hw⟩ | ⟨c, i, u, r, hw, rfl⟩ := execAcquireFix_cases h
  · obtain ⟨acc, cap, heq⟩ := acquireInit_eq s
    rw [heq]
    exact .goesOn rfl rfl
  · exact (recvWait_waitStep hw).instrStep
  · have hwait := recvWait_waitStep hw
    exact acquireEnd_instrStep r hwait.host hwait.status

theorem cfgRecord_instrStep {s u : State} (a : Bool) (hhost : u.hostView = s.hostView)
    (hstatus : u.status = s.status) : InstrStep s (cfgRecord u a) := by
  obtain ⟨k, _, heq⟩ | ⟨_, heq⟩ := cfgRecord_cases u a <;> rw [heq]
  · exact .goesOn hhost hstatus
  · exact .endsOkOrFail _ hhost

theorem cfgStart_instrStep {s t : State} (h : cfgStart s = .next t) : InstrStep s t := by
  obtain rfl | ⟨k, hk⟩ := cfgStart_cases h
  · exact .endsOkOrFail _ rfl
  · obtain ⟨m, _, rfl⟩ := cfgEncode_cases hk
    exact .goesOn rfl rfl

theorem execCfgSeq_instrStep {s t : State} (h : execCfgSeq s = .next t) : InstrStep s t := by
  obtain hstart | henc | rfl | hwait := execCfgSeq_cases h
  · exact cfgStart_instrStep hstart
  · obtain ⟨m, _, rfl⟩ := cfgEncode_cases henc
    exact .goesOn rfl rfl
  · exact .goesOn rfl rfl
  · obtain ⟨c, i, hw⟩ | ⟨c, i, u, a, hw, rfl⟩ := cfgWait_cases hwait
    · exact (ackWait_waitStep hw).instrStep
    · exact cfgRecord_instrStep a (ackWait_waitStep hw).host (ackWait_waitStep hw).status

/-- Every instruction goes on or finishes. -/
theorem exec_instrStep {i : Instr} {s t : State} (h : exec i s = .next t) : InstrStep s t := by
  cases i with
  | encode =>
    obtain rfl | rfl := execEncode_cases h
    · exact .illegal s
    · exact .success rfl
  | transmit =>
    obtain rfl | rfl := execTransmit_cases h
    · exact .illegal s
    · exact .success rfl
  | sendCmd => exact execSendCmd_instrStep h
  | ackWait =>
    cases (execAckWait_eq s).symm.trans h
    exact sendCmdWait_instrStep s
  | recvPayload =>
    obtain rfl | hrecv := execRecvPayload_cases h
    · exact .illegal s
    · exact recvStepFinish_instrStep hrecv
  | poll => exact execPoll_instrStep h
  | decodePvt => cases h; exact .success rfl
  | decodePos => cases h; exact .success rfl
  | decodeStat => cases h; exact .success rfl
  | decodeTime => cases h; exact .success rfl
  | acquireFix => exact execAcquireFix_instrStep h
  | cfgSeq => exact execCfgSeq_instrStep h
  | reserved _ => cases h; exact .illegal s
  | frame _ _ _ _ _ => cases h; exact .goesOn rfl rfl
  | ack _ _ _ => cases h; exact .goesOn rfl rfl
  | nak _ _ _ => cases h; exact .goesOn rfl rfl
  | pollRequest _ _ => cases h; exact .goesOn rfl rfl

/-- Settles O56: every step of an instruction keeps the host's view of the state. -/
theorem instructionsLeaveTheHostsState : Obligations.InstructionsLeaveTheHostsState := by
  intro i s t h
  have hhost := (exec_instrStep h).host
  simpa only [State.hostView, Prod.mk.injEq] using hhost

end Sys2Proof.Machine
end

section
/-! The rows of the table of spec/10_state.md R33, with spec/20_memory.md R54's "who reaches it": for each operation
what it leaves alone of the result registers, the buffers and the streams. -/

namespace Sys2Proof.Machine

/-- At most the oldest byte leaves the receive stream (00_scope.md R19). -/
def TakesAtMostOneByte (s t : State) : Prop := t.rx = s.rx ∨ ∃ b, s.rx = b :: t.rx

/-- What a wait leaves alone, register by register. -/
theorem WaitStep.unchanged {s t : State} (h : WaitStep s t) :
    t.fixReg = s.fixReg ∧ t.acqStatus = s.acqStatus ∧ t.cfgStatus = s.cfgStatus ∧ t.resultLen = s.resultLen ∧
    t.status = s.status ∧ t.frame = s.frame ∧ t.frameLen = s.frameLen ∧ t.tx = s.tx := by
  simpa only [State.resultView, Prod.mk.injEq] using h.results

theorem execEncode_unchanged {s t : State} (h : execEncode s = .next t) :
    t.fixReg = s.fixReg ∧ t.acqStatus = s.acqStatus ∧ t.cfgStatus = s.cfgStatus ∧ t.resultLen = s.resultLen ∧
    t.status.acked = s.status.acked ∧ t.resp = s.resp ∧ t.tx = s.tx ∧ t.rx = s.rx := by
  obtain rfl | rfl := execEncode_cases h <;> simp

theorem execTransmit_unchanged {s t : State} (h : execTransmit s = .next t) :
    t.fixReg = s.fixReg ∧ t.acqStatus = s.acqStatus ∧ t.cfgStatus = s.cfgStatus ∧ t.resultLen = s.resultLen ∧
    t.status.acked = s.status.acked ∧ t.frame = s.frame ∧ t.frameLen = s.frameLen ∧ t.resp = s.resp ∧
    t.rx = s.rx := by
  obtain rfl | rfl := execTransmit_cases h <;> simp

/-- The ACK wait of SEND_CMD and ACK_WAIT writes STATUS alone of the results. -/
theorem sendCmdWait_unchanged (s : State) :
    (sendCmdWait s).fixReg = s.fixReg ∧ (sendCmdWait s).acqStatus = s.acqStatus ∧
    (sendCmdWait s).cfgStatus = s.cfgStatus ∧ (sendCmdWait s).resultLen = s.resultLen ∧
    (sendCmdWait s).frame = s.frame ∧ (sendCmdWait s).frameLen = s.frameLen ∧ (sendCmdWait s).tx = s.tx ∧
    (sendCmdWait s).resp = s.resp ∧ TakesAtMostOneByte s (sendCmdWait s) := by
  obtain hw | ⟨u, a, hw, heq⟩ := sendCmdWait_cases s
  · simp [(ackWait_waitStep hw).unchanged, ackWait_resp hw, TakesAtMostOneByte, (ackWait_waitStep hw).rx]
  · rw [heq]
    simp [(ackWait_waitStep hw).unchanged, ackWait_resp hw, TakesAtMostOneByte, (ackWait_waitStep hw).rx]

theorem execSendCmd_unchanged {s t : State} (h : execSendCmd s = .next t) :
    t.fixReg = s.fixReg ∧ t.acqStatus = s.acqStatus ∧ t.cfgStatus = s.cfgStatus ∧ t.resultLen = s.resultLen ∧
    t.resp = s.resp ∧ TakesAtMostOneByte s t := by
  obtain rfl | rfl | rfl | rfl := execSendCmd_cases h
  · simp [TakesAtMostOneByte]
  · simp [TakesAtMostOneByte]
  · simp [TakesAtMostOneByte]
  · simp [sendCmdWait_unchanged s]

/-- The receive of RECV_PAYLOAD and POLL writes RESP, RESULT_LEN and STATUS but for ACKED. -/
theorem recvStepFinish_unchanged {s t : State} (h : recvStepFinish s = .next t) :
    t.fixReg = s.fixReg ∧ t.acqStatus = s.acqStatus ∧ t.cfgStatus = s.cfgStatus ∧
    t.status.acked = s.status.acked ∧ t.frame = s.frame ∧ t.frameLen = s.frameLen ∧ t.tx = s.tx ∧
    TakesAtMostOneByte s t := by
  obtain hw | ⟨u, r, hw, rfl⟩ := recvStepFinish_cases h <;>
    simp [(recvWait_waitStep hw).unchanged, TakesAtMostOneByte, (recvWait_waitStep hw).rx]

theorem execRecvPayload_unchanged {s t : State} (h : execRecvPayload s = .next t) :
    t.fixReg = s.fixReg ∧ t.acqStatus = s.acqStatus ∧ t.cfgStatus = s.cfgStatus ∧
    t.status.acked = s.status.acked ∧ t.frame = s.frame ∧ t.frameLen = s.frameLen ∧ t.tx = s.tx ∧
    TakesAtMostOneByte s t := by
  obtain rfl | hrecv := execRecvPayload_cases h
  · simp [TakesAtMostOneByte]
  · exact recvStepFinish_unchanged hrecv

theorem execPoll_unchanged {s t : State} (h : execPoll s = .next t) :
    t.fixReg = s.fixReg ∧ t.acqStatus = s.acqStatus ∧ t.cfgStatus = s.cfgStatus ∧
    t.status.acked = s.status.acked ∧ TakesAtMostOneByte s t := by
  obtain rfl | rfl | hrecv := execPoll_cases h
  · simp [TakesAtMostOneByte]
  · simp [TakesAtMostOneByte]
  · simp [recvStepFinish_unchanged hrecv]

/-- The end of a poll of ACQUIRE_FIX leaves CFG_STATUS, ACKED and the receive stream alone. -/
theorem acquireEnd_unchanged (s : State) (r : RecvResult) :
    (acquireEnd s r).cfgStatus = s.cfgStatus ∧ (acquireEnd s r).status.acked = s.status.acked ∧
    (acquireEnd s r).rx = s.rx := by
  unfold acquireEnd
  split
  · obtain ⟨f, a, heq⟩ := acquireEndGen2_eq s r
    simp [heq]
  · obtain ⟨f, a, acc, cap, heq | heq⟩ := acquireEndGen1_cases s (s.phase / 3) r <;> simp [heq]

theorem execAcquireFix_unchanged {s t : State} (h : execAcquireFix s = .next t) :
    t.cfgStatus = s.cfgStatus ∧ t.status.acked = s.status.acked ∧ TakesAtMostOneByte s t := by
  obtain ⟨c, i, rfl⟩ | ⟨c, i, hw⟩ | ⟨c, i, u, r, hw, rfl⟩ := execAcquireFix_cases h
  · obtain ⟨acc, cap, heq⟩ := acquireInit_eq s
    simp [heq, TakesAtMostOneByte]
  · simp [(recvWait_waitStep hw).unchanged, TakesAtMostOneByte, (recvWait_waitStep hw).rx]
  · simp [acquireEnd_unchanged, (recvWait_waitStep hw).unchanged, TakesAtMostOneByte, (recvWait_waitStep hw).rx]

/-- The end of CFG_SEQ writes CFG_STATUS and STATUS (44_config_sequence.md R193). -/
theorem cfgFinish_unchanged (s : State) :
    (cfgFinish s).fixReg = s.fixReg ∧ (cfgFinish s).acqStatus = s.acqStatus ∧
    (cfgFinish s).resultLen = s.resultLen ∧ (cfgFinish s).resp = s.resp ∧ (cfgFinish s).rx = s.rx :=
  ⟨rfl, rfl, rfl, rfl, rfl⟩

theorem cfgRecord_unchanged (s : State) (a : Bool) :
    (cfgRecord s a).fixReg = s.fixReg ∧ (cfgRecord s a).acqStatus = s.acqStatus ∧
    (cfgRecord s a).resultLen = s.resultLen ∧ (cfgRecord s a).resp = s.resp ∧ (cfgRecord s a).rx = s.rx := by
  obtain ⟨k, _, heq⟩ | ⟨_, heq⟩ := cfgRecord_cases s a <;> simp [heq, cfgFinish_unchanged]

theorem cfgEncode_unchanged {s t : State} {k : Nat} (h : cfgEncode s k = .next t) :
    t.fixReg = s.fixReg ∧ t.acqStatus = s.acqStatus ∧ t.resultLen = s.resultLen ∧ t.resp = s.resp ∧ t.rx = s.rx := by
  obtain ⟨m, _, rfl⟩ := cfgEncode_cases h
  simp

theorem execCfgSeq_unchanged {s t : State} (h : execCfgSeq s = .next t) :
    t.fixReg = s.fixReg ∧ t.acqStatus = s.acqStatus ∧ t.resultLen = s.resultLen ∧ t.resp = s.resp ∧
    TakesAtMostOneByte s t := by
  obtain hstart | henc | rfl | hwait := execCfgSeq_cases h
  · obtain rfl | ⟨k, hk⟩ := cfgStart_cases hstart
    · simp [cfgFinish_unchanged, TakesAtMostOneByte]
    · simp [cfgEncode_unchanged hk, TakesAtMostOneByte]
  · simp [cfgEncode_unchanged henc, TakesAtMostOneByte]
  · simp [TakesAtMostOneByte]
  · obtain ⟨c, i, hw⟩ | ⟨c, i, u, a, hw, rfl⟩ := cfgWait_cases hwait
    · simp [(ackWait_waitStep hw).unchanged, ackWait_resp hw, TakesAtMostOneByte, (ackWait_waitStep hw).rx]
    · simp [cfgRecord_unchanged, (ackWait_waitStep hw).unchanged, ackWait_resp hw, TakesAtMostOneByte,
        (ackWait_waitStep hw).rx]

/-- Settles O57: each instruction's row of R33 is what its step leaves alone. -/
theorem resultRegistersByInstruction : Obligations.ResultRegistersByInstruction := by
  intro i s t h
  cases i with
  | encode => simp [execEncode_unchanged h]
  | transmit => simp [execTransmit_unchanged h]
  | sendCmd =>
    have hrow := execSendCmd_unchanged h
    simp only [TakesAtMostOneByte] at hrow
    simp [hrow]
  | ackWait =>
    cases (execAckWait_eq s).symm.trans h
    have hrow := sendCmdWait_unchanged s
    simp only [TakesAtMostOneByte] at hrow
    simp [hrow]
  | recvPayload =>
    have hrow := execRecvPayload_unchanged h
    simp only [TakesAtMostOneByte] at hrow
    simp [hrow]
  | poll =>
    have hrow := execPoll_unchanged h
    simp only [TakesAtMostOneByte] at hrow
    simp [hrow]
  | acquireFix =>
    have hrow := execAcquireFix_unchanged h
    simp only [TakesAtMostOneByte] at hrow
    simp [hrow]
  | cfgSeq =>
    have hrow := execCfgSeq_unchanged h
    simp only [TakesAtMostOneByte] at hrow
    simp [hrow]
  | decodePvt => cases h; simp
  | decodePos => cases h; simp
  | decodeStat => cases h; simp
  | decodeTime => cases h; simp
  | reserved _ => cases h; simp
  | frame _ _ _ _ _ => cases h; simp
  | ack _ _ _ => cases h; simp
  | nak _ _ _ => cases h; simp
  | pollRequest _ _ => cases h; simp

end Sys2Proof.Machine
end

section
/-! STATUS, VARIANT and the parameters under the moves of the agents (spec/00_scope.md R7): only a reset samples
VARIANT (spec/10_state.md R29, R40), and STATUS is a legal word after every step (spec/60_exceptions.md R201). -/

namespace Sys2Proof.Machine

/-- The STATUS of an operation just issued (10_state.md R30). -/
def issued : Status := { busy := true, done := false, ok := false, err := .none, acked := false }

/-- A move of any agent but the reset input: the parameters and VARIANT stay, and STATUS is as it was, as an issue
sets it or as a `finish` leaves it. -/
structure AgentStep (s t : State) : Prop where
  inst : t.inst = s.inst
  variant : t.variant = s.variant
  status : t.status = s.status ∨ t.status = issued ∨
    ∃ ok err acked, (ok = true ↔ err = .none) ∧ t.status = finished ok err acked

theorem AgentStep.of_eq {s t : State} (hinst : t.inst = s.inst) (hvariant : t.variant = s.variant)
    (hstatus : t.status = s.status) : AgentStep s t :=
  ⟨hinst, hvariant, .inl hstatus⟩

theorem InstrStep.agentStep {s t : State} (h : InstrStep s t) : AgentStep s t := by
  have hhost := h.host
  simp only [State.hostView, Prod.mk.injEq] at hhost
  obtain ⟨_, _, _, _, _, _, _, _, _, hvariant, hinst, _⟩ := hhost
  exact ⟨hinst, hvariant, h.status.imp_right .inr⟩

theorem engineMove_agentStep {s t : State} (h : engineMove s = .next t) : AgentStep s t := by
  cases hb : s.status.busy with
  | true => exact (exec_instrStep ((engineMove_busy hb).symm.trans h)).agentStep
  | false =>
    cases (engineMove_idle hb).symm.trans h
    exact .of_eq rfl rfl rfl

theorem receiverMove_agentStep {s t : State} {bs : List Byte} (h : receiverMove bs s = .next t) : AgentStep s t := by
  obtain ⟨arrived, rfl⟩ := receiverMove_rx h
  exact .of_eq rfl rfl rfl

/-- Of the register writes only an issue touches STATUS (10_state.md R20, R30). -/
theorem regWrite_agentStep {s t : State} {index : BitVec 5} {w : Word} (h : s.regWrite index w = some t) :
    AgentStep s t := by
  obtain rfl | rfl | ⟨c, i, pl, cap, tm, tmpl, rfl⟩ := regWrite_cases h
  · exact ⟨rfl, rfl, .inr (.inl rfl)⟩
  · exact .of_eq rfl rfl rfl
  · exact .of_eq rfl rfl rfl

theorem hostMove_agentStep {s t : State} (h : hostMove s = .next t) : AgentStep s t := by
  obtain ⟨_, rfl⟩ | ⟨rest, r, rfl⟩ | ⟨rest, rfl⟩ | ⟨_, rest, index, w, _, hw⟩ | ⟨_, rest, i, v, _, _, rfl⟩ |
    ⟨_, rest, i, v, _, _, rfl⟩ := hostMove_cases h
  · exact .of_eq rfl rfl rfl
  · exact .of_eq rfl rfl rfl
  · exact .of_eq rfl rfl rfl
  · have hwrite := regWrite_agentStep hw
    exact ⟨hwrite.inst, hwrite.variant, hwrite.status⟩
  · exact .of_eq rfl rfl rfl
  · exact .of_eq rfl rfl rfl

theorem runMove_agentStep {s t : State} {m : Move} (hm : m ≠ .reset) (h : runMove m s = .next t) : AgentStep s t := by
  cases m with
  | host => exact hostMove_agentStep h
  | engine => exact engineMove_agentStep h
  | receiver bs => exact receiverMove_agentStep h
  | clock ms => cases h; exact .of_eq rfl rfl rfl
  | reset => exact absurd rfl hm

/-- A step with a move scheduled makes that move. -/
theorem step_of_schedule {s : State} {m : Move} {rest : List Move} (h : s.schedule = m :: rest) :
    step s = runMove m { s with schedule := rest } := by
  simp only [step, h]

/-- A step with a reset scheduled is the reset. -/
theorem step_of_reset {s : State} {rest : List Move} (h : s.schedule = .reset :: rest) :
    step s = .next ({ s with schedule := rest } : State).assertReset :=
  step_of_schedule h

/-- A step that is no reset is a move of one of the agents. -/
theorem step_agentStep {s t : State} (hm : s.schedule.head? ≠ some .reset) (h : step s = .next t) : AgentStep s t := by
  obtain ⟨m, rest, hsched, hstep⟩ | ⟨_, hstep⟩ := step_cases s <;> rw [hstep] at h
  · have hmove := runMove_agentStep (by simpa [hsched] using hm) h
    exact ⟨hmove.inst, hmove.variant, hmove.status⟩
  · have hmove : AgentStep s.freeDraw t := by
      split at h
      · exact (exec_instrStep h).agentStep
      · exact hostMove_agentStep h
    exact ⟨hmove.inst, hmove.variant, hmove.status⟩

/-- A step whose first scheduled move is a reset. -/
theorem step_of_head_reset {s t : State} (hm : s.schedule.head? = some .reset) (h : step s = .next t) :
    ∃ rest, t = ({ s with schedule := rest } : State).assertReset := by
  obtain ⟨rest, hsched⟩ := List.head?_eq_some_iff.1 hm
  cases (step_of_reset hsched).symm.trans h
  exact ⟨rest, rfl⟩

/-- STATUS alone decides whether it is legal. -/
theorem StatusLegal.of_status_eq {s t : State} (h : StatusLegal s) (hst : t.status = s.status) : StatusLegal t := by
  simpa only [StatusLegal, hst] using h

theorem statusLegal_of_issued {t : State} (hst : t.status = issued) : StatusLegal t := by
  simp [StatusLegal, hst, issued]

theorem statusLegal_of_finished {t : State} {ok : Bool} {err : ErrCode} {acked : Bool}
    (agree : ok = true ↔ err = .none) (hst : t.status = finished ok err acked) : StatusLegal t := by
  simp [StatusLegal, hst, finished, agree]

theorem statusLegal_of_reset {t : State} (hst : t.status = Status.reset) : StatusLegal t := by
  simp [StatusLegal, hst, Status.reset]

theorem AgentStep.statusLegal {s t : State} (hmove : AgentStep s t) (h : StatusLegal s) : StatusLegal t := by
  obtain hst | hst | ⟨ok, err, acked, agree, hst⟩ := hmove.status
  · exact h.of_status_eq hst
  · exact statusLegal_of_issued hst
  · exact statusLegal_of_finished agree hst

/-- A legal STATUS with BUSY = 1 is the one an issue sets (10_state.md R22, R30). -/
theorem StatusLegal.eq_issued {s : State} (h : StatusLegal s) (hb : s.status.busy = true) : s.status = issued := by
  obtain ⟨hbusy, _, hidle⟩ := h
  obtain ⟨hdone, hacked⟩ := hbusy hb
  obtain ⟨hok, herr⟩ := hidle hdone
  cases hst : s.status
  simp_all [issued]

/-- Settles O49: an agent's move leaves STATUS, issues or finishes, and a reset clears it; the legal word of a
running operation is 0x001. -/
theorem stepKeepsStatusLegal : Obligations.StepKeepsStatusLegal := by
  refine ⟨fun s t h hstep => ?_, fun s h hb => ?_⟩
  · by_cases hm : s.schedule.head? = some .reset
    · obtain ⟨rest, rfl⟩ := step_of_head_reset hm hstep
      exact statusLegal_of_reset rfl
    · exact (step_agentStep hm hstep).statusLegal h
  · rw [h.eq_issued hb]
    decide

/-- Settles O55: of all moves only the reset writes VARIANT, and none writes the parameters. -/
theorem variantAndTemplatesAreConstant : Obligations.VariantAndTemplatesAreConstant := by
  refine ⟨fun s => ?_, fun s t h => ?_⟩
  · have hread : s.regValue 0x0D = some (variantWord s.variant) := rfl
    rw [hread]
    cases s.variant <;> rfl
  · by_cases hm : s.schedule.head? = some .reset
    · obtain ⟨rest, rfl⟩ := step_of_head_reset hm h
      exact ⟨rfl, fun hne => absurd hm hne, fun _ => rfl⟩
    · have hmove := step_agentStep hm h
      exact ⟨hmove.inst, fun _ => hmove.variant, fun heq => absurd heq hm⟩

/-- Settles O6: a reset move writes the table of R41, one row after the other. -/
theorem resetMoveSetsTheTable : Obligations.ResetMoveSetsTheTable := by
  intro s rest h
  refine ⟨_, step_of_reset h, ?_⟩
  have hbuffers : ∀ b i, Memory.read (({ s with schedule := rest } : State).assertReset.buffer b) i = 0 := by
    intro b i
    cases b <;> rfl
  simp [hbuffers, Status.reset, FixRecord.reset, Dmx.reset]

/-- Settles O7: the reset state is idle, with empty buffers and no record. -/
theorem resetStateIsLegal : Obligations.ResetStateIsLegal := by
  have hidle : ¬ State.reset.status.busy = true := Bool.false_ne_true
  refine ⟨⟨⟨rfl, rfl⟩, ⟨rfl, rfl⟩, ⟨rfl, rfl⟩⟩, statusLegal_of_reset rfl, .of_idle rfl (Nat.zero_le _), ?_, ?_, ?_, rfl⟩
  · exact { canonical := rfl, held := .inl rfl, sending := fun hb => absurd hb hidle }
  · exact { recorded := .inl rfl, running := fun hb => absurd hb hidle }
  · exact { canonical := rfl, target := fun hb => absurd hb hidle }

/-- Settles O15: what each move of the schedule runs, and the engine's move after a free draw. -/
theorem stepRunsDecodedInstruction : Obligations.StepRunsDecodedInstruction := by
  intro s rest
  refine ⟨fun i hsched hb hi => ?_, fun i hsched hb hi => ?_, fun bs i hsched hi => ?_, fun hsched hb => ?_⟩
  · cases hi
    exact (step_of_schedule hsched).trans (engineMove_busy hb)
  · cases hi
    obtain ⟨m, rest, hcons, _⟩ | ⟨_, hstep⟩ := step_cases s
    · simp [hsched] at hcons
    · rw [hstep, if_pos hb]
  · have hrun : receiverMove bs { s with schedule := rest } = exec i { s with schedule := rest } := by
      have harrives : ({ s with schedule := rest } : State).arrivingInstr bs = .ok i := hi
      simp only [receiverMove, harrives]
    exact (step_of_schedule hsched).trans hrun
  · exact (step_of_schedule hsched).trans (engineMove_idle hb)

end Sys2Proof.Machine
end

section
/-! The host port (spec/10_state.md R20 to R31, R37): what a register access returns or writes, which accesses are
refused, and the words of the status registers, bit by bit and as numbers. -/

namespace Sys2Proof.Machine

/-! ## The words of the status registers -/

/-- A flag is the one bit at its position. -/
theorem flagBit_getLsbD (b : Bool) {n : Nat} (hn : n < 32) (j : Nat) :
    (flagBit b n).getLsbD j = (b && decide (j = n)) := by
  cases b with
  | false => simp [flagBit]
  | true =>
    have hpow : flagBit true n = BitVec.twoPow 32 n := BitVec.eq_of_toNat_eq (by simp [flagBit])
    rw [hpow, BitVec.getLsbD_twoPow]
    simp [hn, eq_comm]

/-- ERR as two flags: bits 5:4 of STATUS (10_state.md R22, 60_exceptions.md R200). -/
theorem errCode_word (e : ErrCode) :
    BitVec.ofNat 32 (16 * e.code) =
      flagBit (decide (e = .fail ∨ e = .illegal)) 4 ||| flagBit (decide (e = .capacity ∨ e = .illegal)) 5 := by
  cases e <;> decide

/-- Bits 3, 7:6 and 31:9 of STATUS read 0 (10_state.md R37). -/
theorem Status.word_reservedBit (st : Status) {j : Nat} (hj : j = 3 ∨ j = 6 ∨ j = 7 ∨ 9 ≤ j) :
    st.word.getLsbD j = false := by
  have hne : j ≠ 0 ∧ j ≠ 1 ∧ j ≠ 2 ∧ j ≠ 4 ∧ j ≠ 5 ∧ j ≠ 8 := by omega
  simp [Status.word, errCode_word, flagBit_getLsbD, hne]

/-- A mask of CFG_SEQ stands in the word at its offset (10_state.md R27). -/
theorem mask_getLsbD (m : BitVec 8) (n j : Nat) (hj : j < n ∨ n + 8 ≤ j) :
    (BitVec.ofNat 32 (2 ^ n * m.toNat)).getLsbD j = false := by
  have hbit : (2 ^ n * m.toNat).testBit j = false := by
    rw [Nat.testBit_two_pow_mul]
    rcases hj with hlt | hge
    · simp [Nat.not_le.2 hlt]
    · have hm : m.toNat < 2 ^ (j - n) := m.isLt.trans_le (Nat.pow_le_pow_right (by decide) (by omega))
      simp [Nat.testBit_lt_two_pow hm]
  simp [BitVec.getLsbD_ofNat, hbit]

/-- Bits 7:1 and 31:24 of CFG_STATUS read 0 (10_state.md R27, R37). -/
theorem CfgStatus.word_reservedBit (c : CfgStatus) {j : Nat} (hj : (1 ≤ j ∧ j ≤ 7) ∨ 24 ≤ j) :
    c.word.getLsbD j = false := by
  have hatt := mask_getLsbD c.attempted 8 j (by omega)
  have hstep := mask_getLsbD c.stepOk 16 j (by omega)
  have hne : j ≠ 0 := by omega
  simp only [CfgStatus.word, BitVec.getLsbD_or, flagBit_getLsbD c.cfgOk (by decide : 0 < 32) j]
  simpa [hne] using And.intro hatt hstep

/-- STATUS as a number (10_state.md R22). -/
theorem Status.word_eq (st : Status) :
    st.word = BitVec.ofNat 32
      (st.busy.toNat + 2 * st.done.toNat + 4 * st.ok.toNat + 16 * st.err.code + 256 * st.acked.toNat) := by
  obtain ⟨busy, done, ok, err, acked⟩ := st
  cases err <;> revert busy done ok acked <;> decide

/-- ACQ_STATUS as a number (10_state.md R26). -/
theorem AcqStatus.word_eq (a : AcqStatus) :
    a.word = BitVec.ofNat 32 (a.success.toNat + 2 * a.p0Ok.toNat + 4 * a.p1Ok.toNat + 8 * a.p2Ok.toNat) := by
  obtain ⟨success, p0Ok, p1Ok, p2Ok⟩ := a
  revert success p0Ok p1Ok p2Ok
  decide

/-- CFG_STATUS as a number: its three fields do not overlap (10_state.md R27). -/
theorem CfgStatus.word_eq (c : CfgStatus) :
    c.word = BitVec.ofNat 32 (c.cfgOk.toNat + 256 * c.attempted.toNat + 65536 * c.stepOk.toNat) := by
  have hflag : flagBit c.cfgOk 0 = BitVec.ofNat 32 c.cfgOk.toNat := by cases c.cfgOk <;> rfl
  have hlow : c.cfgOk.toNat < 2 ^ 8 := c.cfgOk.toNat_lt.trans (by decide)
  have hmid : 2 ^ 8 * c.attempted.toNat + c.cfgOk.toNat < 2 ^ 16 := by
    have := c.attempted.isLt
    omega
  have hsum : c.cfgOk.toNat + 256 * c.attempted.toNat + 65536 * c.stepOk.toNat =
      2 ^ 16 * c.stepOk.toNat ||| (2 ^ 8 * c.attempted.toNat ||| c.cfgOk.toNat) := by
    rw [← Nat.two_pow_add_eq_or_of_lt hlow, ← Nat.two_pow_add_eq_or_of_lt hmid]
    omega
  rw [hsum, CfgStatus.word, hflag, BitVec.ofNat_or, BitVec.ofNat_or, BitVec.or_comm]
  congr 1
  exact BitVec.or_comm _ _

/-! ## The register map -/

/-- The indexes no register stands at (10_state.md R37). -/
def reservedIndexes : List (BitVec 5) := [0x07, 0x0E, 0x0F, 0x1B, 0x1C, 0x1D, 0x1E, 0x1F]

/-- What the registers hold: the arguments (10_state.md R21). -/
theorem regValue_arguments (s : State) :
    s.regValue 0x00 = some (s.op.setWidth 32) ∧
    s.regValue 0x01 = some (s.argClass.setWidth 32) ∧
    s.regValue 0x02 = some (s.argId.setWidth 32) ∧
    s.regValue 0x03 = some (s.argPlen.setWidth 32) ∧
    s.regValue 0x04 = some (s.argCap.setWidth 32) ∧
    s.regValue 0x05 = some s.argTimeout ∧
    s.regValue 0x06 = some (s.argTmpl.setWidth 32) :=
  ⟨rfl, rfl, rfl, rfl, rfl, rfl, rfl⟩

/-- The results (10_state.md R22, R23, R26, R27, R29). -/
theorem regValue_results (s : State) :
    s.regValue 0x08 = some s.status.word ∧
    s.regValue 0x09 = some (s.resultLen.setWidth 32) ∧
    s.regValue 0x0A = some s.frameLen ∧
    s.regValue 0x0B = some s.acqStatus.word ∧
    s.regValue 0x0C = some s.cfgStatus.word ∧
    s.regValue 0x0D = some (variantWord s.variant) :=
  ⟨rfl, rfl, rfl, rfl, rfl, rfl⟩

/-- The Fix record (10_state.md R24). -/
theorem regValue_fix (s : State) :
    s.regValue 0x10 = some (s.fixReg.year.setWidth 32) ∧
    s.regValue 0x11 = some (s.fixReg.month.setWidth 32) ∧
    s.regValue 0x12 = some (s.fixReg.day.setWidth 32) ∧
    s.regValue 0x13 = some (s.fixReg.hour.setWidth 32) ∧
    s.regValue 0x14 = some (s.fixReg.minute.setWidth 32) ∧
    s.regValue 0x15 = some (s.fixReg.second.setWidth 32) ∧
    s.regValue 0x16 = some s.fixReg.lat ∧
    s.regValue 0x17 = some s.fixReg.lon ∧
    s.regValue 0x18 = some (s.fixReg.alt.setWidth 32) ∧
    s.regValue 0x19 = some (s.fixReg.numSv.setWidth 32) ∧
    s.regValue 0x1A = some (s.fixReg.fixType.setWidth 32) :=
  ⟨rfl, rfl, rfl, rfl, rfl, rfl, rfl, rfl, rfl, rfl, rfl⟩

theorem regValue_of_reserved (s : State) : ∀ index ∈ reservedIndexes, s.regValue index = none := by
  simp only [reservedIndexes, List.forall_mem_cons]
  exact ⟨rfl, rfl, rfl, rfl, rfl, rfl, rfl, rfl, nofun⟩

theorem regWrite_of_reserved (s : State) (w : Word) : ∀ index ∈ reservedIndexes, s.regWrite index w = none := by
  simp only [reservedIndexes, List.forall_mem_cons]
  exact ⟨rfl, rfl, rfl, rfl, rfl, rfl, rfl, rfl, nofun⟩

/-- The registers that the block alone writes (10_state.md R20). -/
def readOnlyIndexes : List (BitVec 5) :=
  [0x08, 0x09, 0x0A, 0x0B, 0x0C, 0x0D, 0x10, 0x11, 0x12, 0x13, 0x14, 0x15, 0x16, 0x17, 0x18, 0x19, 0x1A]

/-- A write of a read-only register changes nothing (log 9). -/
theorem regWrite_of_readOnly (s : State) (w : Word) : ∀ index ∈ readOnlyIndexes, s.regWrite index w = some s := by
  simp only [readOnlyIndexes, List.forall_mem_cons]
  exact ⟨rfl, rfl, rfl, rfl, rfl, rfl, rfl, rfl, rfl, rfl, rfl, rfl, rfl, rfl, rfl, rfl, rfl, nofun⟩

/-- The registers the host writes (10_state.md R20, R21). -/
def writableIndexes : List (BitVec 5) := [0x00, 0x01, 0x02, 0x03, 0x04, 0x05, 0x06]

/-- Every index is one the host writes, a read-only one or a reserved one. -/
theorem index_cases (index : BitVec 5) :
    index ∈ writableIndexes ∨ index ∈ readOnlyIndexes ∨ index ∈ reservedIndexes := by
  revert index
  decide

theorem exists_regValue_of_writable (s : State) : ∀ index ∈ writableIndexes, ∃ v, s.regValue index = some v := by
  simp only [writableIndexes, List.forall_mem_cons]
  exact ⟨⟨_, rfl⟩, ⟨_, rfl⟩, ⟨_, rfl⟩, ⟨_, rfl⟩, ⟨_, rfl⟩, ⟨_, rfl⟩, ⟨_, rfl⟩, nofun⟩

theorem exists_regValue_of_readOnly (s : State) : ∀ index ∈ readOnlyIndexes, ∃ v, s.regValue index = some v := by
  simp only [readOnlyIndexes, List.forall_mem_cons]
  exact ⟨⟨_, rfl⟩, ⟨_, rfl⟩, ⟨_, rfl⟩, ⟨_, rfl⟩, ⟨_, rfl⟩, ⟨_, rfl⟩, ⟨_, rfl⟩, ⟨_, rfl⟩, ⟨_, rfl⟩, ⟨_, rfl⟩,
    ⟨_, rfl⟩, ⟨_, rfl⟩, ⟨_, rfl⟩, ⟨_, rfl⟩, ⟨_, rfl⟩, ⟨_, rfl⟩, ⟨_, rfl⟩, nofun⟩

theorem exists_regWrite_of_writable (s : State) (w : Word) :
    ∀ index ∈ writableIndexes, ∃ t, s.regWrite index w = some t := by
  simp only [writableIndexes, List.forall_mem_cons]
  exact ⟨⟨_, rfl⟩, ⟨_, rfl⟩, ⟨_, rfl⟩, ⟨_, rfl⟩, ⟨_, rfl⟩, ⟨_, rfl⟩, ⟨_, rfl⟩, nofun⟩

/-- Every register that is not reserved can be read. -/
theorem exists_regValue (s : State) {index : BitVec 5} (h : index ∉ reservedIndexes) :
    ∃ v, s.regValue index = some v := by
  obtain hmem | hmem | hmem := index_cases index
  · exact exists_regValue_of_writable s index hmem
  · exact exists_regValue_of_readOnly s index hmem
  · exact absurd hmem h

/-- A host write to a register that is not reserved has an effect or is ignored; it is not refused. -/
theorem exists_regWrite (s : State) (w : Word) {index : BitVec 5} (h : index ∉ reservedIndexes) :
    ∃ t, s.regWrite index w = some t := by
  obtain hmem | hmem | hmem := index_cases index
  · exact exists_regWrite_of_writable s w index hmem
  · exact ⟨s, regWrite_of_readOnly s w index hmem⟩
  · exact absurd hmem h

/-! ## The host's accesses -/

theorem hostReadReg_of_value {s : State} {index : BitVec 5} {v : Word}
    (hfree : s.status.busy = false ∨ index = statusIndex) (hv : s.regValue index = some v) :
    hostReadReg s index = .next (s.record (.reg index v)) := by
  have hok : ¬ (s.status.busy = true ∧ index ≠ statusIndex) := by
    rintro ⟨hb, hne⟩
    rcases hfree with hidle | heq
    · simp [hb] at hidle
    · exact hne heq
  simp only [hostReadReg, if_neg hok, hv]

theorem hostWriteReg_of_write {s t : State} {index : BitVec 5} {w : Word} (hidle : s.status.busy = false)
    (hw : s.regWrite index w = some t) : hostWriteReg s index w = .next t := by
  simp [hostWriteReg, hidle, hw]

/-- While BUSY = 1 a read of any register but STATUS, a write, and any buffer access are refused (10_state.md R31). -/
theorem hostAccess_busy {s : State} {a : Access} (hb : s.status.busy = true) (hread : a ≠ .readReg statusIndex)
    (hwait : a ≠ .wait) : hostAccess a s = .refused .busyAccess := by
  cases a with
  | readReg index =>
    have hne : index ≠ statusIndex := fun h => hread (by rw [h])
    simp [hostAccess, hostReadReg, hb, hne]
  | writeReg index w => simp [hostAccess, hostWriteReg, hb]
  | readBuf b i => simp [hostAccess, hostReadBuf, hb]
  | writeBuf b i v => simp [hostAccess, hostWriteBuf, hb]
  | wait => exact absurd rfl hwait

/-- An idle host's access to a reserved index is refused (10_state.md R37). -/
theorem hostAccess_reserved {s : State} {a : Access} {index : BitVec 5} (hidle : s.status.busy = false)
    (hres : index ∈ reservedIndexes) (ha : a = .readReg index ∨ ∃ w, a = .writeReg index w) :
    hostAccess a s = .refused (.reservedIndex index) := by
  obtain rfl | ⟨w, rfl⟩ := ha
  · simp [hostAccess, hostReadReg, hidle, regValue_of_reserved s index hres]
  · simp [hostAccess, hostWriteReg, hidle, regWrite_of_reserved s w index hres]

/-- The host's move that reads a register. -/
theorem hostMove_readReg {s : State} {index : BitVec 5} {rest : List Access} {v : Word}
    (hp : s.program = .readReg index :: rest)
    (hadm : programAdmitted s.par s.variant s.argClass s.argId s.program = true)
    (hfree : s.status.busy = false ∨ index = statusIndex) (hv : s.regValue index = some v) :
    hostMove s = .next { s with program := rest, reads := s.reads ++ [.reg index v] } := by
  rw [hostMove_cons hp hadm]
  exact hostReadReg_of_value hfree hv

/-- The host's move that writes a register. -/
theorem hostMove_writeReg {s t : State} {index : BitVec 5} {w : Word} {rest : List Access}
    (hp : s.program = .writeReg index w :: rest)
    (hadm : programAdmitted s.par s.variant s.argClass s.argId s.program = true) (hidle : s.status.busy = false)
    (hw : State.regWrite { s with program := rest } index w = some t) : hostMove s = .next t := by
  rw [hostMove_cons hp hadm]
  exact hostWriteReg_of_write hidle hw

/-- An access to a reserved index is refused, whatever the block does (10_state.md R31, R37). -/
theorem hostMove_reserved {s : State} {a : Access} {index : BitVec 5} {rest : List Access}
    (hres : index ∈ reservedIndexes) (hp : s.program = a :: rest)
    (ha : a = .readReg index ∨ ∃ w, a = .writeReg index w) : ∃ r, hostMove s = .refused r := by
  by_cases hadm : programAdmitted s.par s.variant s.argClass s.argId s.program = true
  · rw [hostMove_cons hp hadm]
    cases hb : s.status.busy with
    | false => exact ⟨_, hostAccess_reserved hb hres ha⟩
    | true =>
      have hstatus : statusIndex ∉ reservedIndexes := by decide
      refine ⟨_, hostAccess_busy hb ?_ ?_⟩
      · rintro rfl
        obtain heq | ⟨w, heq⟩ := ha <;> cases heq
        exact hstatus hres
      · rintro rfl
        obtain heq | ⟨w, heq⟩ := ha <;> cases heq
  · exact ⟨.unsupportedVariant, if_neg hadm⟩

/-- Settles O9: the write of OP is the issue, after which the engine is busy with that opcode. -/
theorem issueStartsTheOperation : Obligations.IssueStartsTheOperation := by
  intro s w rest hidle hp hadm
  exact ⟨_, hostMove_writeReg hp hadm hidle rfl, rfl, engineMove_busy rfl⟩

/-- Settles O10: BUSY = 1 admits the reads of STATUS and refuses the rest. -/
theorem busyAdmitsOnlyStatusReads : Obligations.BusyAdmitsOnlyStatusReads := by
  intro s a rest hb hp hadm
  refine ⟨?_, ?_, fun hread hwait => ?_⟩
  · rintro rfl
    exact hostMove_readReg hp hadm (.inr rfl) rfl
  · rintro rfl
    refine ⟨_, hostMove_cons hp hadm, ?_⟩
    simp only [hostWait]
    split <;> rfl
  · rw [hostMove_cons hp hadm]
    exact hostAccess_busy hb hread hwait

/-- Settles O11: a reserved index is refused in every state, no other is while idle, and the reserved bits are 0. -/
theorem reservedIndexesAndBits : Obligations.ReservedIndexesAndBits := by
  refine ⟨fun s index rest hres hp => ?_, fun s index rest hidle hadm hp => ⟨fun hres => ?_, fun hres => ?_⟩,
    fun st j hj => st.word_reservedBit hj, fun c j hj => c.word_reservedBit hj⟩
  · obtain hp | ⟨w, hp⟩ := hp
    · exact hostMove_reserved hres hp (.inl rfl)
    · exact hostMove_reserved hres hp (.inr ⟨w, rfl⟩)
  · obtain hp | ⟨w, hp⟩ := hp <;> rw [hostMove_cons hp hadm]
    · exact hostAccess_reserved hidle hres (.inl rfl)
    · exact hostAccess_reserved hidle hres (.inr ⟨w, rfl⟩)
  · obtain hp | ⟨w, hp⟩ := hp
    · obtain ⟨v, hv⟩ := exists_regValue s hres
      exact ⟨_, hostMove_readReg hp hadm (.inl hidle) hv⟩
    · obtain ⟨t, ht⟩ := exists_regWrite { s with program := rest } w hres
      exact ⟨t, hostMove_writeReg hp hadm hidle ht⟩

/-! ## A write and the read after it -/

/-- The low bits of a word, widened again (10_state.md R20). -/
theorem setWidth_setWidth_eq_and (w : Word) {n : Nat} (hn : n ≤ 32) :
    (w.setWidth n).setWidth 32 = w &&& BitVec.ofNat 32 (2 ^ n - 1) := by
  have hpow : 2 ^ n ≤ 2 ^ 32 := Nat.pow_le_pow_right (by decide) hn
  have hmask : (BitVec.ofNat 32 (2 ^ n - 1)).toNat = 2 ^ n - 1 := Nat.mod_eq_of_lt (by omega)
  apply BitVec.eq_of_toNat_eq
  rw [BitVec.toNat_and, hmask, Nat.and_two_pow_sub_one_eq_mod, BitVec.toNat_setWidth, BitVec.toNat_setWidth]
  exact Nat.mod_eq_of_lt ((Nat.mod_lt _ (Nat.two_pow_pos n)).trans_le hpow)

/-- A host write and the host's read of the same register as its next access. -/
theorem hostMove_write_then_read {s t : State} {index : BitVec 5} {w v : Word} {later : List Access}
    (hp : s.program = .writeReg index w :: .readReg index :: later)
    (hadm : programAdmitted s.par s.variant s.argClass s.argId s.program = true) (hidle : s.status.busy = false)
    (hw : State.regWrite { s with program := .readReg index :: later } index w = some t)
    (hkeeps : t.program = .readReg index :: later ∧ t.status = s.status ∧ t.reads = s.reads)
    (hadm' : programAdmitted t.par t.variant t.argClass t.argId t.program = true)
    (hv : t.regValue index = some v) :
    ∃ u, hostMove s = .next u ∧
      hostMove u = .next { u with program := later, reads := s.reads ++ [.reg index v] } := by
  obtain ⟨hprogram, hstatus, hreads⟩ := hkeeps
  refine ⟨t, hostMove_writeReg hp hadm hidle hw, ?_⟩
  rw [hostMove_readReg hprogram hadm' (.inl (by rw [hstatus, hidle])) hv, hreads]

/-- Settles O12: the table of the registers' values, the six argument writes, and the write of a register that the
block alone writes. -/
theorem hostRegisterReadsAndWrites : Obligations.HostRegisterReadsAndWrites := by
  intro s rest hidle hadm
  refine ⟨fun index value hp hmem => ?_, fun w hp => hostMove_writeReg hp hadm hidle rfl,
    fun w hp => hostMove_writeReg hp hadm hidle rfl, fun w hp => hostMove_writeReg hp hadm hidle rfl,
    fun w hp => hostMove_writeReg hp hadm hidle rfl, fun w hp => hostMove_writeReg hp hadm hidle rfl,
    fun w hp => hostMove_writeReg hp hadm hidle rfl, fun index w later hmem hrest hp => ?_,
    fun index w hp hmem => hostMove_writeReg hp hadm hidle (regWrite_of_readOnly _ w index hmem)⟩
  · refine hostMove_readReg hp hadm (.inl hidle) ?_
    refine (?_ : ∀ entry ∈ _, s.regValue entry.1 = some (BitVec.ofNat 32 entry.2)) (index, value) hmem
    simp only [List.forall_mem_cons, ← Status.word_eq, ← AcqStatus.word_eq, ← CfgStatus.word_eq, BitVec.ofNat_toNat,
      BitVec.setWidth_eq, regValue_arguments, regValue_results, regValue_fix, true_and]
    exact ⟨by cases s.variant <;> rfl, nofun⟩
  · subst hrest
    have hafter := hadm
    rw [hp] at hafter
    have hbyte : some ((w.setWidth 8).setWidth 32) = some (w &&& 0xFF#32) :=
      congrArg some (setWidth_setWidth_eq_and w (by decide))
    have hhalf : some ((w.setWidth 16).setWidth 32) = some (w &&& 0xFFFF#32) :=
      congrArg some (setWidth_setWidth_eq_and w (by decide))
    simp only [List.mem_cons, List.not_mem_nil, or_false] at hmem
    obtain rfl | rfl | rfl | rfl | rfl | rfl := hmem
    · exact hostMove_write_then_read hp hadm hidle rfl ⟨rfl, rfl, rfl⟩ hafter hbyte
    · exact hostMove_write_then_read hp hadm hidle rfl ⟨rfl, rfl, rfl⟩ hafter hbyte
    · exact hostMove_write_then_read hp hadm hidle rfl ⟨rfl, rfl, rfl⟩ hafter hhalf
    · exact hostMove_write_then_read hp hadm hidle rfl ⟨rfl, rfl, rfl⟩ hafter hhalf
    · exact hostMove_write_then_read hp hadm hidle rfl ⟨rfl, rfl, rfl⟩ hafter rfl
    · exact hostMove_write_then_read hp hadm hidle rfl ⟨rfl, rfl, rfl⟩ hafter hbyte

end Sys2Proof.Machine
end

section
/-! The three byte buffers under the moves of the agents (spec/20_memory.md R54): a host access or an engine step
writes a buffer only inside its size, so every step keeps `BuffersCanonical`. -/

namespace Sys2Proof.Machine

/-! ## One rule per write of a buffer -/

theorem BuffersCanonical.writeTxp {s : State} (h : BuffersCanonical s) {i : Nat} (hi : i < s.par.txpSize) (v : Byte) :
    BuffersCanonical { s with txp := Memory.write s.txp i v } := by
  obtain ⟨⟨hwf, hin⟩, hframe, hresp⟩ := h
  exact ⟨⟨Memory.write_wf hwf i v, Memory.write_within hin hi⟩, hframe, hresp⟩

theorem BuffersCanonical.writeResp {s : State} (h : BuffersCanonical s) {i : Nat} (hi : i < s.par.respSize)
    (v : Byte) : BuffersCanonical { s with resp := Memory.write s.resp i v } := by
  obtain ⟨htxp, hframe, hwf, hin⟩ := h
  exact ⟨htxp, hframe, Memory.write_wf hwf i v, Memory.write_within hin hi⟩

/-- FRAME has room for the 8 bytes around a payload that fits TXP (20_memory.md R54, 40_command_encoder.md R92). -/
theorem BuffersCanonical.encodeToFrame {s : State} (h : BuffersCanonical s) {p : List Byte}
    (hp : p.length ≤ s.par.txpSize) (c i : Byte) : BuffersCanonical (s.encodeToFrame c i p) := by
  obtain ⟨htxp, ⟨hwf, hin⟩, hresp⟩ := h
  have hfits : 0 + (frameBytes c i p).length ≤ bufferSize s.par .frame := by
    simp only [frameBytes_length, bufferSize]
    omega
  exact ⟨htxp, ⟨Memory.writeRange_wf _ hwf 0, Memory.writeRange_within _ hin hfits⟩, hresp⟩

theorem BuffersCanonical.sendPollRequest {s : State} (h : BuffersCanonical s) (c i : Byte) :
    BuffersCanonical (s.sendPollRequest c i) :=
  h.encodeToFrame (p := []) (Nat.zero_le _) c i

/-! ## The waits -/

/-- The matcher reaches no buffer. -/
theorem ackWait_buffersCanonical {s t : State} {c i : Byte} {r : Option Bool} (h : BuffersCanonical s)
    (hw : s.ackWait c i = (t, r)) : BuffersCanonical t := by
  obtain ⟨_, rfl, _⟩ | ⟨_, _, rfl, _⟩ | ⟨_, _, _, rfl, _⟩ | ⟨_, _, b, rest, _, _, rfl⟩ := ackWait_cases hw <;> exact h

/-- The demultiplexer reaches RESP alone, with at most one byte a step, inside its size. -/
theorem recvWait_buffersCanonical {s t : State} {c i : Byte} {cap : Half} {r : Option RecvResult}
    (h : BuffersCanonical s) (hw : s.recvWait c i cap = .ok (t, r)) : BuffersCanonical t := by
  obtain ⟨_, rfl, _⟩ | ⟨_, _, rfl, _⟩ | ⟨_, _, _, rfl, _⟩ | ⟨_, _, b, rest, _, _, hinside, rfl⟩ := recvWait_cases hw
  · exact h
  · exact h
  · exact h
  · cases hstore : (dmxStep s.par.verifyRxChecksum c i cap s.dmx b).store with
    | none => exact h
    | some k => exact h.writeResp (hinside k hstore) b

/-! ## The operations -/

theorem sendCmdWait_buffersCanonical {s : State} (h : BuffersCanonical s) : BuffersCanonical (sendCmdWait s) := by
  obtain hw | ⟨u, a, hw, heq⟩ := sendCmdWait_cases s
  · exact ackWait_buffersCanonical h hw
  · rw [heq]
    exact ackWait_buffersCanonical (t := u) h hw

/-- ENCODE and PHASE 0 of SEND_CMD encode only past the check of ARG_PLEN (30_encoding.md R78). -/
theorem execEncode_buffersCanonical {s t : State} (h : BuffersCanonical s) (hstep : execEncode s = .next t) :
    BuffersCanonical t := by
  unfold execEncode at hstep
  split at hstep <;> cases hstep
  · exact h
  · rename_i hplen
    exact h.encodeToFrame (txpPayload_length_le hplen) s.argClass s.argId

theorem sendCmdEncode_buffersCanonical {s : State} (h : BuffersCanonical s) : BuffersCanonical (sendCmdEncode s) := by
  unfold sendCmdEncode
  split
  · exact h
  · rename_i hplen
    exact h.encodeToFrame (txpPayload_length_le hplen) s.argClass s.argId

theorem execSendCmd_buffersCanonical {s t : State} (h : BuffersCanonical s) (hstep : execSendCmd s = .next t) :
    BuffersCanonical t := by
  unfold execSendCmd at hstep
  split at hstep
  · cases hstep
    exact sendCmdEncode_buffersCanonical h
  · split at hstep <;> cases hstep
    rename_i u hu
    obtain rfl := txFrame_eq hu
    exact h
  · cases hstep
    exact sendCmdWait_buffersCanonical h

theorem recvStepFinish_buffersCanonical {s t : State} (h : BuffersCanonical s) (hstep : recvStepFinish s = .next t) :
    BuffersCanonical t := by
  obtain hw | ⟨u, r, hw, rfl⟩ := recvStepFinish_cases hstep
  · exact recvWait_buffersCanonical h hw
  · exact recvWait_buffersCanonical (t := u) h hw

/-- A decode reads RESP and writes no buffer. -/
theorem acquireEnd_buffersCanonical {s : State} (h : BuffersCanonical s) (r : RecvResult) :
    BuffersCanonical (acquireEnd s r) := by
  unfold acquireEnd
  split
  · obtain ⟨f, a, heq⟩ := acquireEndGen2_eq s r
    rw [heq]
    exact h
  · obtain ⟨f, a, acc, cap, heq | heq⟩ := acquireEndGen1_cases s (s.phase / 3) r <;> rw [heq] <;> exact h

theorem execAcquireFix_buffersCanonical {s t : State} (h : BuffersCanonical s) (hstep : execAcquireFix s = .next t) :
    BuffersCanonical t := by
  obtain ⟨c, i, rfl⟩ | ⟨c, i, hw⟩ | ⟨c, i, u, r, hw, rfl⟩ := execAcquireFix_cases hstep
  · obtain ⟨acc, cap, heq⟩ := acquireInit_eq s
    have hinit : BuffersCanonical (acquireInit s) := by rw [heq]; exact h
    exact hinit.sendPollRequest c i
  · exact recvWait_buffersCanonical h hw
  · exact acquireEnd_buffersCanonical (recvWait_buffersCanonical h hw) r

/-- The frame of a template fits FRAME (44_config_sequence.md R191). -/
theorem cfgEncode_buffersCanonical {s t : State} {k : Nat} (h : BuffersCanonical s)
    (hstep : cfgEncode s k = .next t) : BuffersCanonical t := by
  obtain ⟨m, hm, rfl⟩ := cfgEncode_cases hstep
  exact h.encodeToFrame (s.inst.template_payload_le (List.mem_of_getElem? hm)) m.cls m.ident

theorem cfgStart_buffersCanonical {s t : State} (h : BuffersCanonical s) (hstep : cfgStart s = .next t) :
    BuffersCanonical t := by
  obtain rfl | ⟨k, hk⟩ := cfgStart_cases hstep
  · exact h
  · exact cfgEncode_buffersCanonical (s := { s with accOk := true, attMask := 0, okMask := 0 }) h hk

theorem cfgRecord_buffersCanonical {s : State} (h : BuffersCanonical s) (a : Bool) :
    BuffersCanonical (cfgRecord s a) := by
  obtain ⟨k, _, heq⟩ | ⟨_, heq⟩ := cfgRecord_cases s a <;> rw [heq] <;> exact h

theorem execCfgSeq_buffersCanonical {s t : State} (h : BuffersCanonical s) (hstep : execCfgSeq s = .next t) :
    BuffersCanonical t := by
  obtain hstart | henc | rfl | hwait := execCfgSeq_cases hstep
  · exact cfgStart_buffersCanonical h hstart
  · exact cfgEncode_buffersCanonical h henc
  · exact h
  · obtain ⟨c, i, hw⟩ | ⟨c, i, u, a, hw, rfl⟩ := cfgWait_cases hwait
    · exact ackWait_buffersCanonical h hw
    · exact cfgRecord_buffersCanonical (ackWait_buffersCanonical h hw) a

/-- Every instruction keeps the three buffers canonical. -/
theorem exec_buffersCanonical {i : Instr} {s t : State} (h : BuffersCanonical s) (hstep : exec i s = .next t) :
    BuffersCanonical t := by
  cases i with
  | encode => exact execEncode_buffersCanonical h hstep
  | transmit => obtain rfl | rfl := execTransmit_cases hstep <;> exact h
  | sendCmd => exact execSendCmd_buffersCanonical h hstep
  | ackWait =>
    cases (execAckWait_eq s).symm.trans hstep
    exact sendCmdWait_buffersCanonical h
  | recvPayload =>
    obtain rfl | hrecv := execRecvPayload_cases hstep
    · exact h
    · exact recvStepFinish_buffersCanonical h hrecv
  | poll =>
    obtain rfl | rfl | hrecv := execPoll_cases hstep
    · exact h
    · exact h.sendPollRequest s.argClass s.argId
    · exact recvStepFinish_buffersCanonical h hrecv
  | acquireFix => exact execAcquireFix_buffersCanonical h hstep
  | cfgSeq => exact execCfgSeq_buffersCanonical h hstep
  | pollRequest c i => cases hstep; exact h.sendPollRequest c i
  | decodePvt => cases hstep; exact h
  | decodePos => cases hstep; exact h
  | decodeStat => cases hstep; exact h
  | decodeTime => cases hstep; exact h
  | reserved _ => cases hstep; exact h
  | frame _ _ _ _ _ => cases hstep; exact h
  | ack _ _ _ => cases hstep; exact h
  | nak _ _ _ => cases hstep; exact h

/-! ## The moves of the agents -/

/-- A host register write reaches no buffer. -/
theorem regWrite_buffersCanonical {s t : State} {index : BitVec 5} {w : Word} (h : BuffersCanonical s)
    (hw : s.regWrite index w = some t) : BuffersCanonical t := by
  obtain rfl | rfl | ⟨c, i, pl, cap, tm, tmpl, rfl⟩ := regWrite_cases hw <;> exact h

/-- The host writes TXP and RESP, inside their size (20_memory.md R55). -/
theorem hostMove_buffersCanonical {s t : State} (h : BuffersCanonical s) (hstep : hostMove s = .next t) :
    BuffersCanonical t := by
  obtain ⟨_, rfl⟩ | ⟨rest, r, rfl⟩ | ⟨rest, rfl⟩ | ⟨_, rest, index, w, _, hw⟩ | ⟨_, rest, i, v, _, hi, rfl⟩ |
    ⟨_, rest, i, v, _, hi, rfl⟩ := hostMove_cases hstep
  · exact h
  · exact h
  · exact h
  · exact regWrite_buffersCanonical (s := { s with program := rest }) h hw
  · exact h.writeTxp hi v
  · exact h.writeResp hi v

theorem engineMove_buffersCanonical {s t : State} (h : BuffersCanonical s) (hstep : engineMove s = .next t) :
    BuffersCanonical t := by
  cases hb : s.status.busy with
  | true => exact exec_buffersCanonical h ((engineMove_busy hb).symm.trans hstep)
  | false =>
    cases (engineMove_idle hb).symm.trans hstep
    exact h

theorem runMove_buffersCanonical {s t : State} {m : Move} (h : BuffersCanonical s) (hstep : runMove m s = .next t) :
    BuffersCanonical t := by
  cases m with
  | host => exact hostMove_buffersCanonical h hstep
  | engine => exact engineMove_buffersCanonical h hstep
  | receiver bs =>
    obtain ⟨arrived, rfl⟩ := receiverMove_rx hstep
    exact h
  | clock ms => cases hstep; exact h
  | reset =>
    cases hstep
    exact ⟨⟨rfl, rfl⟩, ⟨rfl, rfl⟩, ⟨rfl, rfl⟩⟩

/-- Settles O48: the move of every agent writes a buffer only inside its size, and a reset empties all three. -/
theorem stepKeepsBuffersCanonical : Obligations.StepKeepsBuffersCanonical := by
  intro s t h hstep
  obtain ⟨m, rest, _, heq⟩ | ⟨_, heq⟩ := step_cases s <;> rw [heq] at hstep
  · exact runMove_buffersCanonical (s := { s with schedule := rest }) h hstep
  · have hdraw : BuffersCanonical s.freeDraw := h
    split at hstep
    · exact exec_buffersCanonical hdraw hstep
    · exact hostMove_buffersCanonical hdraw hstep

end Sys2Proof.Machine
end

section
/-! The host's buffer accesses (spec/20_memory.md R55): the one outcome of each, by BUSY and by the index. -/

namespace Sys2Proof.Machine

/-- A read inside the buffer returns the byte and changes no buffer. -/
theorem hostAccess_readBuf {s : State} {b : Buffer} {i : Nat} (hidle : s.status.busy = false)
    (hi : i < bufferSize s.par b) :
    hostAccess (.readBuf b i) s = .next (s.record (.buf b i (Memory.read (s.buffer b) i))) := by
  simp [hostAccess, hostReadBuf, hidle, hi]

theorem hostAccess_writeBuf_txp {s : State} {i : Nat} (hidle : s.status.busy = false) (hi : i < s.par.txpSize)
    (v : Byte) : hostAccess (.writeBuf .txp i v) s = .next { s with txp := Memory.write s.txp i v } := by
  simp [hostAccess, hostWriteBuf, hidle, bufferSize, hi]

theorem hostAccess_writeBuf_resp {s : State} {i : Nat} (hidle : s.status.busy = false) (hi : i < s.par.respSize)
    (v : Byte) : hostAccess (.writeBuf .resp i v) s = .next { s with resp := Memory.write s.resp i v } := by
  simp [hostAccess, hostWriteBuf, hidle, bufferSize, hi]

/-- FRAME is read-only to the host, at every index. -/
theorem hostAccess_writeBuf_frame {s : State} (hidle : s.status.busy = false) (i : Nat) (v : Byte) :
    hostAccess (.writeBuf .frame i v) s = .refused (.bufferAccess .frame i) := by
  simp [hostAccess, hostWriteBuf, hidle]

/-- An access at or past the buffer's size is refused. -/
theorem hostAccess_buf_outside {s : State} {a : Access} {b : Buffer} {i : Nat} (hidle : s.status.busy = false)
    (hi : bufferSize s.par b ≤ i) (ha : a = .readBuf b i ∨ ∃ v, a = .writeBuf b i v) :
    hostAccess a s = .refused (.bufferAccess b i) := by
  have hout : ¬ i < bufferSize s.par b := Nat.not_lt.2 hi
  obtain rfl | ⟨v, rfl⟩ := ha
  · simp [hostAccess, hostReadBuf, hidle, hout]
  · simp [hostAccess, hostWriteBuf, hidle, hout]

/-- Settles O13: the host's next access is the buffer access its program begins with; a byte written is read back
at its index and at no other, by `Memory.read_write`. -/
theorem hostBufferAccess : Obligations.HostBufferAccess := by
  intro s rest ⟨⟨htxp, _⟩, _, hresp, _⟩ hadm
  refine ⟨fun b i hp hidle hi => ?_, fun i v hp hidle hi => ?_, fun i v hp hidle hi => ?_, fun i v hp hidle => ?_,
    fun b i v hp hidle hi => ?_, fun b i hp hidle hi => ?_, fun b i v hp hb => ?_⟩
  · rw [hostMove_cons hp hadm]
    exact hostAccess_readBuf hidle hi
  · exact ⟨_, (hostMove_cons hp hadm).trans (hostAccess_writeBuf_txp (s := { s with program := rest }) hidle hi v),
      fun j => Memory.read_write htxp i j v⟩
  · exact ⟨_, (hostMove_cons hp hadm).trans (hostAccess_writeBuf_resp (s := { s with program := rest }) hidle hi v),
      fun j => Memory.read_write hresp i j v⟩
  · exact (hostMove_cons hp hadm).trans (hostAccess_writeBuf_frame hidle i v)
  · exact (hostMove_cons hp hadm).trans (hostAccess_buf_outside hidle hi (.inr ⟨v, rfl⟩))
  · exact (hostMove_cons hp hadm).trans (hostAccess_buf_outside hidle hi (.inl rfl))
  · obtain hp | hp := hp <;> exact (hostMove_cons hp hadm).trans (hostAccess_busy hb nofun nofun)

end Sys2Proof.Machine
end

section
/-! The environment under the moves of the agents: the clock does not go back (spec/10_state.md R39), the receive
stream is consumed from its front and appended to at its end (spec/20_memory.md R53, R61, spec/00_scope.md R19), and
no move writes the schedule, so an infinite run ends in free draws, whose clock is fair. -/

namespace Sys2Proof.Machine

/-- The receive stream loses at most its oldest byte and gains bytes at its end. -/
def ConsumesInOrder (before after : List Byte) : Prop :=
  ∃ (arrived : List Byte) (k : Nat), k ≤ 1 ∧ after = (before ++ arrived).drop k

theorem ConsumesInOrder.refl (rx : List Byte) : ConsumesInOrder rx rx := ⟨[], 0, Nat.zero_le 1, by simp⟩

theorem ConsumesInOrder.append (rx arrived : List Byte) : ConsumesInOrder rx (rx ++ arrived) :=
  ⟨arrived, 0, Nat.zero_le 1, rfl⟩

theorem ConsumesInOrder.tail (b : Byte) (rx : List Byte) : ConsumesInOrder (b :: rx) rx := ⟨[], 1, le_rfl, by simp⟩

/-- Bytes that arrive before a move are bytes that arrive in the same step. -/
theorem ConsumesInOrder.of_append {before drawn after : List Byte} (h : ConsumesInOrder (before ++ drawn) after) :
    ConsumesInOrder before after := by
  obtain ⟨arrived, k, hk, rfl⟩ := h
  exact ⟨drawn ++ arrived, k, hk, by rw [List.append_assoc]⟩

/-- What a move of any agent does to what is outside the block. -/
structure EnvironmentStep (s t : State) : Prop where
  clock : s.now ≤ t.now
  stream : ConsumesInOrder s.rx t.rx
  schedule : t.schedule = s.schedule
  draws : t.draws = s.draws

theorem EnvironmentStep.of_eq {s t : State} (hnow : t.now = s.now) (hrx : t.rx = s.rx)
    (hschedule : t.schedule = s.schedule) (hdraws : t.draws = s.draws) : EnvironmentStep s t :=
  ⟨hnow.ge, hrx ▸ .refl s.rx, hschedule, hdraws⟩

/-! ## The moves of the agents -/

/-- What an instruction does to the receive stream (10_state.md R33). -/
theorem exec_consumesInOrder {i : Instr} {s t : State} (h : exec i s = .next t) : ConsumesInOrder s.rx t.rx := by
  obtain ⟨_, _, _, _, _, _, _, _, hrx | ⟨_, b, hrx⟩ | ⟨_, arrived, hrx⟩⟩ := resultRegistersByInstruction i s t h
  · rw [hrx]
    exact .refl s.rx
  · rw [hrx]
    exact .tail b t.rx
  · rw [hrx]
    exact .append s.rx arrived

theorem exec_environmentStep {i : Instr} {s t : State} (h : exec i s = .next t) : EnvironmentStep s t := by
  have hhost := (exec_instrStep h).host
  simp only [State.hostView, Prod.mk.injEq] at hhost
  obtain ⟨_, _, _, _, _, _, _, _, _, _, _, hnow, _, hschedule, _, hdraws⟩ := hhost
  exact ⟨hnow.ge, exec_consumesInOrder h, hschedule, hdraws⟩

theorem engineMove_environmentStep {s t : State} (h : engineMove s = .next t) : EnvironmentStep s t := by
  cases hb : s.status.busy with
  | true => exact exec_environmentStep ((engineMove_busy hb).symm.trans h)
  | false =>
    cases (engineMove_idle hb).symm.trans h
    exact .of_eq rfl rfl rfl rfl

theorem regWrite_environmentStep {s t : State} {index : BitVec 5} {w : Word} (h : s.regWrite index w = some t) :
    EnvironmentStep s t := by
  obtain rfl | rfl | ⟨c, i, pl, cap, tm, tmpl, rfl⟩ := regWrite_cases h <;> exact .of_eq rfl rfl rfl rfl

theorem hostMove_environmentStep {s t : State} (h : hostMove s = .next t) : EnvironmentStep s t := by
  obtain ⟨_, rfl⟩ | ⟨rest, r, rfl⟩ | ⟨rest, rfl⟩ | ⟨_, rest, index, w, _, hw⟩ | ⟨_, rest, i, v, _, _, rfl⟩ |
    ⟨_, rest, i, v, _, _, rfl⟩ := hostMove_cases h
  · exact .of_eq rfl rfl rfl rfl
  · exact .of_eq rfl rfl rfl rfl
  · exact .of_eq rfl rfl rfl rfl
  · have hwrite := regWrite_environmentStep hw
    exact ⟨hwrite.clock, hwrite.stream, hwrite.schedule, hwrite.draws⟩
  · exact .of_eq rfl rfl rfl rfl
  · exact .of_eq rfl rfl rfl rfl

theorem runMove_environmentStep {s t : State} {m : Move} (h : runMove m s = .next t) : EnvironmentStep s t := by
  cases m with
  | host => exact hostMove_environmentStep h
  | engine => exact engineMove_environmentStep h
  | receiver bs =>
    obtain ⟨arrived, rfl⟩ := receiverMove_rx h
    exact ⟨le_rfl, .append s.rx arrived, rfl, rfl⟩
  | clock ms =>
    cases h
    exact ⟨Nat.le_add_right s.now ms, .refl s.rx, rfl, rfl⟩
  | reset =>
    cases h
    exact .of_eq rfl rfl rfl rfl

/-! ## A step -/

/-- A step makes one move: of the scheduled ones, or after a free draw. -/
theorem step_environmentStep {s t : State} (h : step s = .next t) :
    (∃ m rest, s.schedule = m :: rest ∧ EnvironmentStep { s with schedule := rest } t) ∨
    (s.schedule = [] ∧ EnvironmentStep s.freeDraw t) := by
  obtain ⟨m, rest, hsched, hstep⟩ | ⟨hsched, hstep⟩ := step_cases s <;> rw [hstep] at h
  · exact .inl ⟨m, rest, hsched, runMove_environmentStep h⟩
  · refine .inr ⟨hsched, ?_⟩
    split at h
    · exact exec_environmentStep h
    · exact hostMove_environmentStep h

theorem step_now_le {s t : State} (h : step s = .next t) : s.now ≤ t.now := by
  obtain ⟨m, rest, _, hmove⟩ | ⟨_, hmove⟩ := step_environmentStep h
  · exact hmove.clock
  · exact (Nat.le_add_right _ _).trans hmove.clock

theorem step_consumesInOrder {s t : State} (h : step s = .next t) : ConsumesInOrder s.rx t.rx := by
  obtain ⟨m, rest, _, hmove⟩ | ⟨_, hmove⟩ := step_environmentStep h
  · exact hmove.stream
  · exact hmove.stream.of_append

/-- The schedule is used up move by move. -/
theorem step_schedule {s t : State} (h : step s = .next t) : t.schedule = s.schedule.tail := by
  obtain ⟨m, rest, hsched, hmove⟩ | ⟨hsched, hmove⟩ := step_environmentStep h
  · rw [hsched]
    exact hmove.schedule
  · rw [hsched]
    exact hmove.schedule.trans hsched

/-- A step with nothing scheduled draws from the free clock (log 4). -/
theorem step_freeDraw {s t : State} (hsched : s.schedule = []) (h : step s = .next t) :
    t.draws = s.draws + 1 ∧ s.now + clockDraw s.draws ≤ t.now := by
  obtain ⟨m, rest, hcons, _⟩ | ⟨_, hmove⟩ := step_environmentStep h
  · simp [hsched] at hcons
  · exact ⟨hmove.draws, hmove.clock⟩

/-! ## An infinite run -/

theorem InfiniteRun.now_monotone {r : Nat → State} (hr : InfiniteRun r) : Monotone fun n => (r n).now :=
  monotone_nat_of_le_succ fun n => step_now_le (hr n)

theorem InfiniteRun.schedule_eq_drop {r : Nat → State} (hr : InfiniteRun r) (n : Nat) :
    (r n).schedule = (r 0).schedule.drop n := by
  induction n with
  | zero => rfl
  | succ n ih => rw [step_schedule (hr n), ih, List.tail_drop]

/-- The schedule is finite: from some step on every step is a free draw. -/
theorem InfiniteRun.schedule_nil {r : Nat → State} (hr : InfiniteRun r) {n : Nat}
    (hn : (r 0).schedule.length ≤ n) : (r n).schedule = [] := by
  rw [hr.schedule_eq_drop, List.drop_eq_nil_of_le hn]

theorem InfiniteRun.draws_add {r : Nat → State} (hr : InfiniteRun r) {n : Nat}
    (hn : (r 0).schedule.length ≤ n) (k : Nat) : (r (n + k)).draws = (r n).draws + k := by
  induction k with
  | zero => rfl
  | succ k ih =>
    obtain ⟨hdraws, _⟩ := step_freeDraw (hr.schedule_nil (by omega)) (hr (n + k))
    rw [← Nat.add_assoc n k 1, hdraws, ih, Nat.add_assoc]

/-- The clock advances again, from any step on. -/
theorem InfiniteRun.exists_now_lt {r : Nat → State} (hr : InfiniteRun r) (n : Nat) : ∃ m, (r n).now < (r m).now := by
  obtain ⟨start, hle, hlen⟩ : ∃ start, n ≤ start ∧ (r 0).schedule.length ≤ start :=
    ⟨max n (r 0).schedule.length, le_max_left _ _, le_max_right _ _⟩
  obtain ⟨draw, hdraw, hpos⟩ := clockDraw_fair (r start).draws
  obtain ⟨k, rfl⟩ := Nat.exists_eq_add_of_le hdraw
  obtain ⟨_, hrise⟩ := step_freeDraw (hr.schedule_nil (by omega)) (hr (start + k))
  rw [hr.draws_add hlen k] at hrise
  have hmono : (r n).now ≤ (r (start + k)).now := hr.now_monotone (by omega)
  exact ⟨start + k + 1, by omega⟩

/-- The model's clock is fair in every infinite run (10_state.md R39, log 4). -/
theorem InfiniteRun.fairRun {r : Nat → State} (hr : InfiniteRun r) : FairRun r := by
  intro bound
  induction bound with
  | zero =>
    obtain ⟨m, hm⟩ := hr.exists_now_lt 0
    exact ⟨m, Nat.zero_lt_of_lt hm⟩
  | succ bound ih =>
    obtain ⟨n, hn⟩ := ih
    obtain ⟨m, hm⟩ := hr.exists_now_lt n
    exact ⟨m, by omega⟩

/-- Settles O54: each move keeps the order of the stream and the clock, and a run outlasts its schedule. -/
theorem streamOrderAndClock : Obligations.StreamOrderAndClock :=
  ⟨fun _ _ h => ⟨step_now_le h, step_consumesInOrder h⟩, fun _ hr => hr.fairRun⟩

end Sys2Proof.Machine
end

section
/-! The bytes of a frame (spec/30_encoding.md R70 to R72, spec/40_command_encoder.md R91, R100): its length field as
a number, where each part stands, and the poll request in closed form. -/

namespace Sys2Proof.Machine

/-! ## The length field -/

theorem lowByte_ofNat (n : Nat) : lowByte (BitVec.ofNat 16 n) = BitVec.ofNat 8 n := by
  apply BitVec.eq_of_toNat_eq
  simp only [lowByte, BitVec.toNat_ofNat]
  omega

theorem highByte_ofNat {n : Nat} (hn : n ≤ 65535) : highByte (BitVec.ofNat 16 n) = BitVec.ofNat 8 (n / 256) := by
  have hmod : n % 2 ^ 16 = n := Nat.mod_eq_of_lt (by omega)
  simp only [highByte, BitVec.toNat_ofNat, hmod]

/-- A length that 16 bits can give is read back from its two bytes. -/
theorem le16_low_high_ofNat {n : Nat} (hn : n ≤ 65535) :
    (le16 (lowByte (BitVec.ofNat 16 n)) (highByte (BitVec.ofNat 16 n))).toNat = n := by
  rw [le16_low_high]
  exact Nat.mod_eq_of_lt (by omega)

/-! ## The parts of a frame -/

/-- A frame, its six header bytes one by one (R70). -/
theorem frameWith_eq (c i : Byte) (p : List Byte) (a b : Byte) :
    frameWith c i p a b =
      0xB5 :: 0x62 :: c :: i :: lowByte (BitVec.ofNat 16 p.length) :: highByte (BitVec.ofNat 16 p.length) ::
        (p ++ [a, b]) := by
  simp [frameWith, frameHeader, sync1, sync2]

/-- What the checksum of a frame covers: class through payload (R72, R91). -/
def checksumOf (c i : Byte) (p : List Byte) : Byte × Byte := fletcher8 (frameHeader c i p.length ++ p)

/-- The encoder's frame carries the checksum of its own header and payload (R91). -/
theorem frameBytes_eq (c i : Byte) (p : List Byte) :
    frameBytes c i p = frameWith c i p (checksumOf c i p).1 (checksumOf c i p).2 := rfl

/-- The bytes at offsets 2 through 5+L are what the checksum covers (R72). -/
theorem frameWith_covered (c i : Byte) (p : List Byte) (a b : Byte) :
    ((frameWith c i p a b).drop 2).take (4 + p.length) = frameHeader c i p.length ++ p := by
  have hsplit : (frameWith c i p a b).drop 2 = (frameHeader c i p.length ++ p) ++ [a, b] := by
    simp [frameWith, sync1, sync2]
  rw [hsplit]
  exact List.take_left' (by simp)

theorem frameWith_payload (c i : Byte) (p : List Byte) (a b : Byte) :
    ((frameWith c i p a b).drop 6).take p.length = p := by
  simp [frameWith_eq]

theorem frameWith_checksum (c i : Byte) (p : List Byte) (a b : Byte) :
    (frameWith c i p a b).drop (6 + p.length) = [a, b] := by
  rw [← List.drop_drop, frameWith_eq]
  exact List.drop_left

/-! ## The poll request -/

/-- The checksum of a header with length 0 (R100). -/
theorem fletcher8_pollHeader (c i : Byte) : fletcher8 [c, i, 0, 0] = (c + i, 4 * c + 3 * i) := by
  simp only [fletcher8, fletcherStep, List.foldl_cons, List.foldl_nil, Prod.mk.injEq]
  constructor <;> ring

/-- The poll request of (c, i) in closed form (R100). -/
def pollRequestBytes (c i : Byte) : List Byte := [0xB5, 0x62, c, i, 0x00, 0x00, c + i, 4 * c + 3 * i]

theorem pollFrame_eq (c i : Byte) : pollFrame c i = pollRequestBytes c i := by
  have hck : checksumOf c i [] = (c + i, 4 * c + 3 * i) := fletcher8_pollHeader c i
  rw [pollFrame, frameBytes_eq, hck, frameWith_eq]
  rfl

/-- Settles O4: each part of the frame by its offset, and the poll request as the frame without payload. -/
theorem frameLayout : Obligations.FrameLayout := by
  refine ⟨fun c i p hp => ⟨frameBytes_length c i p, ?_, ?_, ?_, ?_⟩, fun c i => ⟨rfl, ?_, ?_⟩⟩
  · simp [frameBytes_eq, frameWith_eq]
  · rw [← le16_toNat]
    simpa [frameBytes_eq, frameWith_eq] using le16_low_high_ofNat hp
  · exact frameWith_payload c i p _ _
  · rw [frameBytes_eq, frameWith_checksum, frameWith_covered]
    rfl
  · exact fletcher8_pollHeader c i
  · exact pollFrame_eq c i

end Sys2Proof.Machine
end

section
/-! Decoding and encoding (spec/30_encoding.md R70 to R79): the opcode bytes, the received and the sent units, and
the round trip over them. -/

namespace Sys2Proof

open Sys2Proof.Machine

/-- R6: an ACK and a NAK differ in their marker. -/
theorem Instance.nakMark_ne_ackMark (i : Instance) : i.p.nakMark ≠ i.p.ackMark := by
  have h := i.ok
  simp only [Params.admissible, Bool.and_eq_true, decide_eq_true_eq, and_assoc] at h
  obtain ⟨_, _, _, _, _, _, hmarks, _⟩ := h
  exact hmarks.symm

/-! ## Opcodes -/

/-- The reserved opcodes are 0x00 and 0x0D to 0xFF (R79). -/
theorem reservedOpcode_iff (b : Byte) : reservedOpcode b = true ↔ b = 0 ∨ 0x0D ≤ b := by
  simp [reservedOpcode]

theorem reservedOpcode_iff_toNat (b : Byte) : reservedOpcode b = true ↔ b.toNat = 0 ∨ 13 ≤ b.toNat := by
  rw [reservedOpcode_iff, BitVec.le_def, ← BitVec.toNat_inj]
  rfl

/-- A reserved opcode selects RESERVED, which holds the byte (R79). -/
theorem decodeOp_of_reserved {b : Byte} (h : reservedOpcode b = true) : decodeOp b = .reserved b := by
  rw [reservedOpcode_iff_toNat] at h
  unfold decodeOp
  split
  case h_13 => rfl
  all_goals omega

/-- What an instruction must be for the opcode byte `b` to select it and be its encoding. -/
structure IsOpcodeOf (p : Params) (b : Byte) (i : Instr) : Prop where
  wellFormed : i.wellFormed p = true
  source : i.source = .command
  encoded : encode p i = [b]

/-- Every opcode byte selects an operation or is reserved, and is its own encoding (R77, R79). -/
theorem decodeOp_isOpcodeOf (p : Params) (b : Byte) : IsOpcodeOf p b (decodeOp b) := by
  by_cases hres : reservedOpcode b = true
  · rw [decodeOp_of_reserved hres]
    exact ⟨hres, rfl, rfl⟩
  · obtain ⟨hlo, hhi⟩ : 1 ≤ b.toNat ∧ b.toNat ≤ 12 := by
      rw [reservedOpcode_iff_toNat] at hres
      omega
    have hbyte : BitVec.ofNat 8 b.toNat = b := by simp
    interval_cases hop : b.toNat <;> exact hbyte ▸ ⟨rfl, rfl, rfl⟩

/-! ## Units of the wire -/

/-- A unit whose length field gives its length is read by the place it stands in (R70, R71). -/
theorem decodeWire_of_length {p : Params} (sent : Bool) {c i l0 l1 : Byte} {body : List Byte}
    (hlen : body.length = (le16 l0 l1).toNat + 2) :
    decodeWire p sent (0xB5 :: 0x62 :: c :: i :: l0 :: l1 :: body) =
      if sent then decodeSentBody c i (le16 l0 l1).toNat body
      else decodeReceivedBody p c i (le16 l0 l1).toNat body := by
  simp [decodeWire, sync1, sync2, hlen]

/-- A frame that is no acknowledgement frame is received as a FRAME, whatever its checksum bytes (R70, R139). -/
theorem decode_frame {p : Params} {c i : Byte} {pl : List Byte} (hlen : pl.length ≤ 65535)
    (hshape : ackShaped p c i pl.length = false) (a b : Byte) :
    decode p .received (frameWith c i pl a b) = .ok (.frame c i pl a b) := by
  have hfield := le16_low_high_ofNat hlen
  rw [frameWith_eq, decode, decodeWire_of_length false (by rw [hfield]; simp), hfield]
  simp [decodeReceivedBody, hshape]

/-- The unit that begins with an acknowledgement template and has the length of one (R74, R110). -/
theorem decode_ackUnit {p : Params} {mark : Byte} {tail : List Byte} (hmark : mark = p.ackMark ∨ mark = p.nakMark)
    (htail : tail.length = p.ackLen.toNat) (c i : Byte) :
    decode p .received (ackHeader p mark ++ [c, i] ++ tail) =
      .ok (if mark = p.ackMark then .ack c i tail else .nak c i tail) := by
  have hshape : ackShaped p p.ackClass mark p.ackLen.toNat = true := by simpa [ackShaped] using hmark
  have hunit : ackHeader p mark ++ [c, i] ++ tail =
      0xB5 :: 0x62 :: p.ackClass :: mark :: lowByte p.ackLen :: highByte p.ackLen :: c :: i :: tail := by
    simp [ackHeader, sync1, sync2]
  rw [hunit, decode, decodeWire_of_length false (by simp [htail]), le16_low_high]
  simp [decodeReceivedBody, hshape]

/-- A poll request that the block sends is read as one (R75, R100). -/
theorem decode_pollFrame (p : Params) (c i : Byte) : decode p .sent (pollFrame c i) = .ok (.pollRequest c i) := by
  rw [pollFrame, frameBytes_eq, frameWith_eq, decode, decodeWire_of_length true rfl]
  simp [decodeSentBody, checksumOf]

/-! ## The round trip -/

/-- Decoding the encoding of a well-formed instruction gives it back. -/
theorem decode_encode (inst : Instance) {i : Instr} (h : i.wellFormed inst.p = true) :
    decode inst.p i.source (encode inst.p i) = .ok i := by
  cases i with
  | reserved b => exact congrArg Except.ok (decodeOp_of_reserved h)
  | frame c i pl a b =>
    simp only [Instr.wellFormed, Bool.and_eq_true, decide_eq_true_eq, Bool.not_eq_true'] at h
    obtain ⟨hlen, hshape⟩ := h
    exact decode_frame hlen hshape a b
  | ack c i tail =>
    have hunit := decode_ackUnit (p := inst.p) (.inl rfl) (of_decide_eq_true h) c i
    rwa [if_pos rfl] at hunit
  | nak c i tail =>
    have hunit := decode_ackUnit (p := inst.p) (.inr rfl) (of_decide_eq_true h) c i
    rwa [if_neg inst.nakMark_ne_ackMark] at hunit
  | pollRequest c i => exact decode_pollFrame inst.p c i
  | encode | transmit | sendCmd | ackWait | recvPayload | poll | decodePvt | decodePos | decodeStat | decodeTime
  | acquireFix | cfgSeq => rfl

/-- Settles O1: the round trip, and every opcode byte as the encoding of what it selects. -/
theorem decodeEncodeRoundTrip : Obligations.DecodeEncodeRoundTrip := by
  refine ⟨fun inst i h => decode_encode inst h, fun p b => ?_⟩
  obtain ⟨hwf, hsource, henc⟩ := decodeOp_isOpcodeOf p b
  exact ⟨hwf, hsource, henc⟩

/-- Settles O2: each written word is the encoding of its instruction, well-formed under the chip's parameters. -/
theorem writtenWordsDecode : Obligations.WrittenWordsDecode :=
  ⟨decode_encode Config.chip (i := .sendCmd) rfl,
    decode_encode Config.chip (i := .cfgSeq) rfl,
    decode_encode Config.chip (i := .reserved 0x0D) rfl,
    decode_encode Config.chip (i := .ack 0x06 0x11 [0x1F, 0x48]) rfl,
    decode_encode Config.chip (i := .nak 0x06 0x11 [0x1E, 0x43]) rfl,
    decode_encode Config.chip (i := .frame 0x01 0x02 [0x11, 0x22, 0x33, 0x44] 0xB1 0x82) rfl,
    decode_encode Config.chip (i := .pollRequest 0x01 0x07) rfl⟩

end Sys2Proof
end

section
/-! The units of the wire as they cross the port, and the reserved opcodes (spec/30_encoding.md R70 to R75, R79). -/

namespace Sys2Proof.Machine

/-- What an encode puts into a canonical FRAME: the frame from index 0 on (40_command_encoder.md R92). -/
theorem readRange_encoded {m : Memory} (h : m.wf = true) (c i : Byte) (p : List Byte) :
    Memory.readRange (Memory.writeRange m 0 (frameBytes c i p)) 0 (p.length + 8) = frameBytes c i p := by
  have hback := Memory.readRange_writeRange h 0 (frameBytes c i p)
  rwa [frameBytes_length] at hback

/-- A poll request whole: FRAME, FRAME_LEN, the write on the transmit stream and PHASE (R75, 42_payload_demux.md
R140). -/
theorem sendPollRequest_eq {s : State} (h : s.frame.wf = true) (c i : Byte) :
    s.sendPollRequest c i =
      { s with
        frame := Memory.writeRange s.frame 0 (pollRequestBytes c i), frameLen := 8, phase := s.phase + 2
        tx := s.tx ++ [pollRequestBytes c i] } := by
  have hsent : Memory.readRange (Memory.writeRange s.frame 0 (pollFrame c i)) 0 8 = pollFrame c i :=
    readRange_encoded h c i []
  have hbuilt : s.sendPollRequest c i =
      { s with
        frame := Memory.writeRange s.frame 0 (pollFrame c i), frameLen := 8, phase := s.phase + 2
        tx := s.tx ++ [Memory.readRange (Memory.writeRange s.frame 0 (pollFrame c i)) 0 8] } := rfl
  rw [hbuilt, hsent, pollFrame_eq]

/-- Settles O47: the eight bytes in FRAME and on the stream are those of the poll request's closed form. -/
theorem pollRequestIsBuiltAndSent : Obligations.PollRequestIsBuiltAndSent := by
  intro s c i h
  refine ⟨_, congrArg Host.Outcome.next (sendPollRequest_eq h c i), Memory.writeRange_wf _ h 0, fun j => ?_⟩
  rw [Memory.read_writeRange _ h]
  by_cases hj : j < 8
  · rw [dif_pos (by simpa [pollRequestBytes] using hj), if_pos hj, List.getD_eq_getElem _ _ hj]
    rfl
  · rw [dif_neg (by simpa [pollRequestBytes] using hj), if_neg hj]

/-- Settles O16: PHASE 3j of a poll is the poll request of the message whose turn it is. -/
theorem pollsBeginWithThePollRequest : Obligations.PollsBeginWithThePollRequest := by
  refine ⟨fun s hphase hcap => ?_, fun s hv hphase => ?_, fun s hv hphase => ?_, fun s hv hphase => ?_,
    fun s hv hphase => ?_⟩
  · have hok : ¬ s.badCap = true := by simpa [State.badCap] using hcap
    simp only [exec, execPoll, hphase, execPollRequest, if_neg hok]
  all_goals simp [exec, execAcquireFix, execPollRequest, acquireTarget, acquireInit, hv, hphase]

/-- Settles O45: a reserved byte selects RESERVED, whose one step is `finish(0, ILLEGAL)`. -/
theorem reservedFinishesIllegal : Obligations.ReservedFinishesIllegal :=
  fun _ b hb => ⟨decodeOp_of_reserved ((reservedOpcode_iff b).2 hb), rfl⟩

/-- The acknowledgement unit begins with its template (R74, 41_ack_matcher.md R110). -/
theorem ackHeader_append (p : Params) (c i : Byte) (acked : Bool) :
    ackHeader p (if acked then p.ackMark else p.nakMark) ++ [c, i] = templateOf p c i acked := rfl

/-- Settles O46: the bytes appended are the unit's encoding, and a frame's length field is its payload's length. -/
theorem arrivingUnitsJoinTheStream : Obligations.ArrivingUnitsJoinTheStream := by
  intro s c i a b p tail hp
  have hframe : frameWith c i p a b =
      [0xB5, 0x62, c, i, BitVec.ofNat 8 p.length, BitVec.ofNat 8 (p.length / 256)] ++ p ++ [a, b] := by
    rw [frameWith_eq, lowByte_ofNat, highByte_ofNat hp]
    simp
  rw [← hframe, ← ackHeader_append, ← ackHeader_append]
  exact ⟨rfl, rfl, rfl⟩

end Sys2Proof.Machine
end

section
/-! FRAME and the transmit stream under the moves of the agents (spec/30_encoding.md R83, spec/40_command_encoder.md
R92, R95): a step leaves the two as they are, encodes a frame, hands over the frame that FRAME holds, does both for a
poll request, or resets; so `FrameHeld` is kept and every write is a frame of the encoder. -/

namespace Sys2Proof

/-- R6 bounds TXP_SIZE by what a 16-bit length can give. -/
theorem Instance.txpSize_le (i : Instance) : i.p.txpSize ≤ 65535 := by
  have h := i.ok
  simp only [Params.admissible, Bool.and_eq_true, decide_eq_true_eq, and_assoc] at h
  obtain ⟨_, htxp, _⟩ := h
  exact htxp

end Sys2Proof

namespace Sys2Proof.Machine

/-! ## What a step can do to FRAME and the transmit stream -/

/-- The part of the state that a frame passes through, with the parameters that bound its payload. -/
def State.frameView (s : State) : Instance × Memory × Word × List (List Byte) := (s.inst, s.frame, s.frameLen, s.tx)

theorem State.frameView_parts {s t : State} (h : t.frameView = s.frameView) :
    t.inst = s.inst ∧ t.frame = s.frame ∧ t.frameLen = s.frameLen ∧ t.tx = s.tx := by
  simpa only [State.frameView, Prod.mk.injEq] using h

/-- SEND_CMD past its encode, or CFG_SEQ between the encode and the write of a template (40_command_encoder.md R97,
44_config_sequence.md R192): there is a frame in FRAME. -/
def State.Sending (s : State) : Prop :=
  s.status.busy = true ∧ ((s.curOp = 0x03 ∧ s.phase ≠ 0) ∨ (s.curOp = 0x0C ∧ s.phase % 3 = 1))

/-- What one step can do to FRAME, FRAME_LEN and the transmit stream: nothing; encode a payload that fits TXP (R92);
hand over the frame that FRAME_LEN says there is (R95); build and hand over a poll request (42_payload_demux.md R140);
reset. It begins to send a template only by an encode. -/
inductive FrameStep (s t : State) : Prop
  | keeps (view : t.frameView = s.frameView) (sending : t.Sending → s.Sending)
  | encodes (c i : Byte) (p : List Byte) (fits : p.length ≤ s.par.txpSize)
      (view : t.frameView = (s.encodeToFrame c i p).frameView)
  | transmits (nonempty : s.frameLen ≠ 0)
      (view : t.frameView = (s.txWrite (Memory.readRange s.frame 0 s.frameLen.toNat)).frameView)
  | polls (c i : Byte) (view : t.frameView = (s.sendPollRequest c i).frameView)
  | resets (view : t.frameView = s.assertReset.frameView) (idle : t.status.busy = false)

/-- An idle block sends nothing. -/
theorem FrameStep.idle {s t : State} (view : t.frameView = s.frameView) (hidle : t.status.busy = false) :
    FrameStep s t :=
  .keeps view fun ⟨hb, _⟩ => by simp [hidle] at hb

/-- The end of an operation leaves the block idle. -/
theorem FrameStep.finish {s u : State} (view : u.frameView = s.frameView) (ok : Bool) (err : ErrCode) :
    FrameStep s (u.finish ok err) :=
  .idle view rfl

/-- A step reads of its first state only the frame's part and whether it sends. -/
theorem FrameStep.of_start {s s' t : State} (h : FrameStep s' t) (view : s'.frameView = s.frameView)
    (sending : s'.Sending → s.Sending) : FrameStep s t := by
  obtain ⟨hinst, hframe, hlen, htx⟩ := State.frameView_parts view
  cases h with
  | keeps hv hs => exact .keeps (hv.trans view) (sending ∘ hs)
  | encodes c i p fits hv =>
    refine .encodes c i p (by rwa [State.par, ← hinst]) (hv.trans ?_)
    simp [State.frameView, hinst, hframe, htx]
  | transmits nonempty hv =>
    refine .transmits (by rwa [← hlen]) (hv.trans ?_)
    simp [State.frameView, hinst, hframe, hlen, htx]
  | polls c i hv =>
    refine .polls c i (hv.trans ?_)
    simp [State.frameView, hinst, hframe, htx]
  | resets hv hidle =>
    refine .resets (hv.trans ?_) hidle
    simp [State.frameView, hinst, htx]

/-! ## What the invariant gains from it -/

/-- FRAME holds the frame of (c, i, p) when its bytes and FRAME_LEN are that frame's. -/
theorem FrameHeld.of_encoded {s t : State} {c i : Byte} {p : List Byte} (hwf : s.frame.wf = true)
    (fits : p.length ≤ t.par.txpSize) (hframe : t.frame = Memory.writeRange s.frame 0 (frameBytes c i p))
    (hlen : t.frameLen = BitVec.ofNat 32 (p.length + 8)) : FrameHeld t := by
  have hbound : t.par.txpSize ≤ 65535 := t.inst.txpSize_le
  have htoNat : t.frameLen.toNat = p.length + 8 := by
    rw [hlen]
    exact Nat.mod_eq_of_lt (by omega)
  exact {
    canonical := by rw [hframe]; exact Memory.writeRange_wf _ hwf 0
    held := .inr ⟨c, i, p, fits, htoNat, by rw [hframe]; exact readRange_encoded hwf c i p⟩
    sending := fun _ _ hzero => by simp [hzero] at htoNat }

/-- A move that leaves the frame's part alone and does not begin to send keeps the invariant. -/
theorem FrameHeld.of_view {s t : State} (h : FrameHeld s) (view : t.frameView = s.frameView)
    (sending : t.Sending → s.Sending) : FrameHeld t := by
  obtain ⟨hinst, hframe, hlen, _⟩ := State.frameView_parts view
  obtain ⟨canonical, held, hsome⟩ := h
  refine ⟨by rwa [hframe], by rwa [hframe, hlen, State.par, hinst], fun hb hop => ?_⟩
  obtain ⟨hb', hop'⟩ := sending ⟨hb, hop⟩
  rw [hlen]
  exact hsome hb' hop'

/-- What a step leaves in FRAME is the frame it found there, one it encoded, or nothing. -/
theorem FrameStep.frameHeld {s t : State} (hstep : FrameStep s t) (h : FrameHeld s) : FrameHeld t := by
  cases hstep with
  | keeps view hsend => exact h.of_view view hsend
  | encodes c i p fits view =>
    obtain ⟨hinst, hframe, hlen, _⟩ := State.frameView_parts view
    exact .of_encoded h.canonical (by rwa [State.par, hinst]) hframe hlen
  | transmits nonempty view =>
    obtain ⟨hinst, hframe, hlen, _⟩ := State.frameView_parts view
    refine ⟨by rw [hframe]; exact h.canonical, ?_, fun _ _ => by rwa [hlen]⟩
    rw [hframe, hlen, State.par, hinst]
    exact h.held
  | polls c i view =>
    obtain ⟨_, hframe, hlen, _⟩ := State.frameView_parts view
    exact .of_encoded (p := []) h.canonical (Nat.zero_le _) hframe hlen
  | resets view hidle =>
    obtain ⟨_, hframe, hlen, _⟩ := State.frameView_parts view
    exact ⟨by rw [hframe]; rfl, .inl hlen, fun hb => by simp [hidle] at hb⟩

/-- At most one write, of a frame the encoder built. -/
theorem FrameStep.tx {s t : State} (hstep : FrameStep s t) (h : FrameHeld s) :
    t.tx = s.tx ∨ ∃ (c i : Byte) (p : List Byte), p.length ≤ s.par.txpSize ∧ t.tx = s.tx ++ [frameBytes c i p] := by
  cases hstep with
  | keeps view _ =>
    obtain ⟨_, _, _, htx⟩ := State.frameView_parts view
    exact .inl htx
  | encodes c i p _ view =>
    obtain ⟨_, _, _, htx⟩ := State.frameView_parts view
    exact .inl htx
  | transmits nonempty view =>
    obtain ⟨_, _, _, htx⟩ := State.frameView_parts view
    obtain hzero | ⟨c, i, p, fits, hlen, hbytes⟩ := h.held
    · exact absurd hzero nonempty
    · rw [hlen, hbytes] at htx
      exact .inr ⟨c, i, p, fits, htx⟩
  | polls c i view =>
    obtain ⟨_, _, _, htx⟩ := State.frameView_parts view
    refine .inr ⟨c, i, [], Nat.zero_le _, htx.trans ?_⟩
    rw [sendPollRequest_eq h.canonical, ← pollFrame_eq]
    rfl
  | resets view _ =>
    obtain ⟨_, _, _, htx⟩ := State.frameView_parts view
    exact .inl htx

/-! ## The waits -/

theorem WaitStep.frameView {s t : State} (h : WaitStep s t) : t.frameView = s.frameView := by
  have hhost := h.host
  simp only [State.hostView, Prod.mk.injEq] at hhost
  obtain ⟨_, _, _, _, _, _, _, _, _, _, hinst, _⟩ := hhost
  obtain ⟨_, _, _, _, _, hframe, hlen, htx⟩ := h.unchanged
  simp only [State.frameView, hinst, hframe, hlen, htx]

/-- A wait stays in its operation and leaves the frame's part alone. -/
theorem WaitStep.frameStep {s t : State} (h : WaitStep s t) (hcur : t.curOp = s.curOp) (hphase : t.phase = s.phase) :
    FrameStep s t :=
  .keeps h.frameView fun hs => by simpa only [State.Sending, h.status, hcur, hphase] using hs

theorem ackWait_phase {s t : State} {c i : Byte} {r : Option Bool} (h : s.ackWait c i = (t, r)) :
    t.phase = s.phase := by
  obtain ⟨_, rfl, _⟩ | ⟨_, _, rfl, _⟩ | ⟨_, _, _, rfl, _⟩ | ⟨_, _, b, rest, _, _, rfl⟩ := ackWait_cases h <;> rfl

theorem ackWait_frameStep {s t : State} {c i : Byte} {r : Option Bool} (h : s.ackWait c i = (t, r)) : FrameStep s t := by
  obtain ⟨_, _, hcur, _⟩ := ackWait_unchanged h
  exact (ackWait_waitStep h).frameStep hcur (ackWait_phase h)

theorem recvWait_frameStep {s t : State} {c i : Byte} {cap : Half} {r : Option RecvResult}
    (h : s.recvWait c i cap = .ok (t, r)) : FrameStep s t := by
  obtain ⟨_, _, _, hcur, _, hphase, _⟩ := recvWait_unchanged h
  exact (recvWait_waitStep h).frameStep hcur hphase

/-! ## The operations -/

theorem sendCmdWait_frameStep (s : State) : FrameStep s (sendCmdWait s) := by
  obtain hw | ⟨u, a, hw, heq⟩ := sendCmdWait_cases s
  · exact ackWait_frameStep hw
  · rw [heq]
    exact .finish (u := u.setAcked a) (ackWait_waitStep hw).frameView _ _

theorem execEncode_frameStep {s t : State} (h : execEncode s = .next t) : FrameStep s t := by
  unfold execEncode at h
  split at h <;> cases h
  · exact .finish rfl _ _
  · rename_i hplen
    exact .encodes s.argClass s.argId s.txpPayload (txpPayload_length_le hplen) rfl

theorem execTransmit_frameStep {s t : State} (h : execTransmit s = .next t) : FrameStep s t := by
  unfold execTransmit at h
  split at h
  · cases h
    exact .finish rfl _ _
  · rename_i hsome
    split at h <;> cases h
    rename_i u hu
    obtain rfl := txFrame_eq hu
    exact .transmits (by simpa [State.noFrame] using hsome) rfl

theorem sendCmdEncode_frameStep (s : State) : FrameStep s (sendCmdEncode s) := by
  unfold sendCmdEncode
  split
  · exact .finish rfl _ _
  · rename_i hplen
    exact .encodes s.argClass s.argId s.txpPayload (txpPayload_length_le hplen) rfl

/-- PHASE 1 of SEND_CMD hands over the frame that PHASE 0 built. -/
theorem execSendCmd_frameStep {s t : State} (hsend : s.Sending → s.frameLen ≠ 0) (hb : s.status.busy = true)
    (hop : s.curOp = 0x03) (h : execSendCmd s = .next t) : FrameStep s t := by
  unfold execSendCmd at h
  split at h
  · cases h
    exact sendCmdEncode_frameStep s
  · rename_i hphase
    split at h <;> cases h
    rename_i u hu
    obtain rfl := txFrame_eq hu
    exact .transmits (hsend ⟨hb, .inl ⟨hop, by omega⟩⟩) rfl
  · cases h
    exact sendCmdWait_frameStep s

theorem recvStepFinish_frameStep {s t : State} (h : recvStepFinish s = .next t) : FrameStep s t := by
  obtain hw | ⟨u, r, hw, rfl⟩ := recvStepFinish_cases h
  · exact recvWait_frameStep hw
  · have hview : ({ u with resultLen := r.length } : State).frameView = s.frameView := (recvWait_waitStep hw).frameView
    exact .finish hview _ _

theorem execPoll_frameStep {s t : State} (h : execPoll s = .next t) : FrameStep s t := by
  obtain rfl | rfl | hrecv := execPoll_cases h
  · exact .finish rfl _ _
  · exact .polls s.argClass s.argId rfl
  · exact recvStepFinish_frameStep hrecv

/-- The end of a poll of ACQUIRE_FIX is the end of the operation, or the next poll, which sends no template. -/
theorem acquireEnd_frameStep {s u : State} (hview : u.frameView = s.frameView) (hop : u.curOp = 0x0B) (r : RecvResult) :
    FrameStep s (acquireEnd u r) := by
  unfold acquireEnd
  split
  · obtain ⟨f, a, heq⟩ := acquireEndGen2_eq u r
    rw [heq]
    exact .idle hview rfl
  · obtain ⟨f, a, acc, cap, heq | heq⟩ := acquireEndGen1_cases u (u.phase / 3) r <;> rw [heq]
    · exact .idle hview rfl
    · exact .keeps hview fun hs => by simp [State.Sending, hop] at hs

theorem execAcquireFix_frameStep {s t : State} (hop : s.curOp = 0x0B) (h : execAcquireFix s = .next t) :
    FrameStep s t := by
  obtain ⟨c, i, rfl⟩ | ⟨c, i, hw⟩ | ⟨c, i, u, r, hw, rfl⟩ := execAcquireFix_cases h
  · obtain ⟨acc, cap, heq⟩ := acquireInit_eq s
    rw [heq]
    exact .polls c i rfl
  · exact recvWait_frameStep hw
  · obtain ⟨_, _, _, hcur, _⟩ := recvWait_unchanged hw
    exact acquireEnd_frameStep (recvWait_waitStep hw).frameView (hcur.trans hop) r

/-- The encode of a template, whose payload fits TXP (44_config_sequence.md R191). -/
theorem cfgEncode_frameStep {s t : State} {k : Nat} (h : cfgEncode s k = .next t) : FrameStep s t := by
  obtain ⟨m, hm, rfl⟩ := cfgEncode_cases h
  exact .encodes m.cls m.ident m.payload (s.inst.template_payload_le (List.mem_of_getElem? hm)) rfl

theorem cfgStart_frameStep {s t : State} (h : cfgStart s = .next t) : FrameStep s t := by
  obtain rfl | ⟨k, hk⟩ := cfgStart_cases h
  · exact .idle rfl rfl
  · exact (cfgEncode_frameStep hk).of_start rfl id

/-- The end of a template's ACK wait is the end of CFG_SEQ, or PHASE 3K of the next template, before its encode. -/
theorem cfgRecord_frameStep {s u : State} (hview : u.frameView = s.frameView) (hop : u.curOp = 0x0C) (a : Bool) :
    FrameStep s (cfgRecord u a) := by
  obtain ⟨k, _, heq⟩ | ⟨_, heq⟩ := cfgRecord_cases u a <;> rw [heq]
  · exact .keeps hview fun hs => by simp [State.Sending, hop] at hs
  · exact .idle hview rfl

theorem cfgWait_frameStep {s t : State} (hop : s.curOp = 0x0C) (h : cfgWait s = .next t) : FrameStep s t := by
  obtain ⟨c, i, hw⟩ | ⟨c, i, u, a, hw, rfl⟩ := cfgWait_cases h
  · exact ackWait_frameStep hw
  · obtain ⟨_, _, hcur, _⟩ := ackWait_unchanged hw
    exact cfgRecord_frameStep (ackWait_waitStep hw).frameView (hcur.trans hop) a

/-- PHASE 3K+1 of CFG_SEQ hands over the frame that PHASE 3K built. -/
theorem execCfgSeq_frameStep {s t : State} (hsend : s.Sending → s.frameLen ≠ 0) (hb : s.status.busy = true)
    (hop : s.curOp = 0x0C) (h : execCfgSeq s = .next t) : FrameStep s t := by
  unfold execCfgSeq at h
  split at h
  · exact cfgStart_frameStep h
  · split at h
    · exact cfgEncode_frameStep h
    · rename_i hphase
      split at h <;> cases h
      rename_i u hu
      obtain rfl := txFrame_eq hu
      exact .transmits (hsend ⟨hb, .inr ⟨hop, hphase⟩⟩) rfl
    · exact cfgWait_frameStep hop h

/-- One engine step of the operation in CUR_OP. -/
theorem exec_decodeOp_frameStep {s t : State} (h : FrameHeld s) (hb : s.status.busy = true)
    (hstep : exec (decodeOp s.curOp) s = .next t) : FrameStep s t := by
  have hsend : s.Sending → s.frameLen ≠ 0 := fun ⟨hb, hop⟩ => h.sending hb hop
  unfold decodeOp at hstep
  split at hstep <;> rename_i hop
  · exact execEncode_frameStep hstep
  · exact execTransmit_frameStep hstep
  · exact execSendCmd_frameStep hsend hb (BitVec.eq_of_toNat_eq hop) hstep
  · cases (execAckWait_eq s).symm.trans hstep
    exact sendCmdWait_frameStep s
  · obtain rfl | hrecv := execRecvPayload_cases hstep
    · exact .finish rfl _ _
    · exact recvStepFinish_frameStep hrecv
  · exact execPoll_frameStep hstep
  · cases hstep; exact .idle rfl rfl
  · cases hstep; exact .idle rfl rfl
  · cases hstep; exact .idle rfl rfl
  · cases hstep; exact .idle rfl rfl
  · exact execAcquireFix_frameStep (BitVec.eq_of_toNat_eq hop) hstep
  · exact execCfgSeq_frameStep hsend hb (BitVec.eq_of_toNat_eq hop) hstep
  · cases hstep; exact .finish rfl _ _

/-! ## The moves of the agents -/

/-- An issue starts at PHASE 0, before any encode; no other register write reaches the engine. -/
theorem regWrite_frameStep {s t : State} {index : BitVec 5} {w : Word} (h : s.regWrite index w = some t) :
    FrameStep s t := by
  obtain rfl | rfl | ⟨c, i, pl, cap, tm, tmpl, rfl⟩ := regWrite_cases h
  · exact .keeps rfl fun hs => by simp [State.Sending] at hs
  · exact .keeps rfl id
  · exact .keeps rfl id

/-- The host does not reach FRAME (20_memory.md R55). -/
theorem hostMove_frameStep {s t : State} (h : hostMove s = .next t) : FrameStep s t := by
  obtain ⟨_, rfl⟩ | ⟨rest, r, rfl⟩ | ⟨rest, rfl⟩ | ⟨_, rest, index, w, _, hw⟩ | ⟨_, rest, i, v, _, _, rfl⟩ |
    ⟨_, rest, i, v, _, _, rfl⟩ := hostMove_cases h
  · exact .keeps rfl id
  · exact .keeps rfl id
  · exact .keeps rfl id
  · exact (regWrite_frameStep hw).of_start rfl id
  · exact .keeps rfl id
  · exact .keeps rfl id

theorem engineMove_frameStep {s t : State} (h : FrameHeld s) (hstep : engineMove s = .next t) : FrameStep s t := by
  cases hb : s.status.busy with
  | true => exact exec_decodeOp_frameStep h hb ((engineMove_busy hb).symm.trans hstep)
  | false =>
    cases (engineMove_idle hb).symm.trans hstep
    exact .keeps rfl id

theorem runMove_frameStep {s t : State} {m : Move} (h : FrameHeld s) (hstep : runMove m s = .next t) :
    FrameStep s t := by
  cases m with
  | host => exact hostMove_frameStep hstep
  | engine => exact engineMove_frameStep h hstep
  | receiver bs =>
    obtain ⟨arrived, rfl⟩ := receiverMove_rx hstep
    exact .keeps rfl id
  | clock ms => cases hstep; exact .keeps rfl id
  | reset => cases hstep; exact .resets rfl rfl

/-- Every step does to FRAME and the transmit stream one of the things a `FrameStep` is. -/
theorem step_frameStep {s t : State} (h : FrameHeld s) (hstep : step s = .next t) : FrameStep s t := by
  obtain ⟨m, rest, _, heq⟩ | ⟨_, heq⟩ := step_cases s <;> rw [heq] at hstep
  · have hrest : FrameHeld { s with schedule := rest } := h.of_view rfl id
    exact (runMove_frameStep hrest hstep).of_start rfl id
  · have hdraw : FrameHeld s.freeDraw := h.of_view rfl id
    refine FrameStep.of_start (s' := s.freeDraw) ?_ rfl id
    split at hstep
    · rename_i hb
      exact exec_decodeOp_frameStep hdraw hb hstep
    · exact hostMove_frameStep hstep

/-- Settles O52, by what a step can do to FRAME. -/
theorem stepKeepsFrameHeld : Obligations.StepKeepsFrameHeld :=
  fun _ _ h hstep => (step_frameStep h hstep).frameHeld h

/-- Settles O53: what a step writes is the frame FRAME held or the poll request it builds. -/
theorem everyWriteIsAWellFormedFrame : Obligations.EveryWriteIsAWellFormedFrame :=
  fun _ _ h hstep => (step_frameStep h hstep).tx h

end Sys2Proof.Machine
end

section
/-! The checksum in closed form (spec/40_command_encoder.md R90, R99): the first byte is the sum of the bytes, the
second the sum of the first after each byte, so each byte counts once for itself and once for every byte after it. -/

namespace Sys2Proof.Machine

/-- The sum of the bytes: what `ck_a` is, before the reduction mod 256 (R99). -/
def byteSum (x : List Byte) : Nat := (x.map BitVec.toNat).sum

/-- The sum of the bytes, each as often as there are bytes from it to the end: what `ck_b` is, before the reduction
mod 256 (R99). -/
def weightedByteSum (x : List Byte) : Nat :=
  ((List.range x.length).map fun k => (x.length - k) * (x.getD k 0).toNat).sum

@[simp] theorem byteSum_nil : byteSum [] = 0 := rfl

@[simp] theorem byteSum_cons (b : Byte) (x : List Byte) : byteSum (b :: x) = b.toNat + byteSum x := by
  simp [byteSum]

@[simp] theorem weightedByteSum_nil : weightedByteSum [] = 0 := rfl

@[simp] theorem weightedByteSum_cons (b : Byte) (x : List Byte) :
    weightedByteSum (b :: x) = (x.length + 1) * b.toNat + weightedByteSum x := by
  simp [weightedByteSum, List.range_succ_eq_map, Function.comp_def]

/-- From any accumulators (a, b): a byte adds itself to the first, and the first is added to the second once a byte. -/
theorem foldl_fletcherStep (x : List Byte) (a b : Byte) :
    x.foldl fletcherStep (a, b) =
      (a + BitVec.ofNat 8 (byteSum x), b + BitVec.ofNat 8 x.length * a + BitVec.ofNat 8 (weightedByteSum x)) := by
  induction x generalizing a b with
  | nil => simp
  | cons y x ih =>
    rw [List.foldl_cons, fletcherStep, ih]
    simp only [byteSum_cons, weightedByteSum_cons, List.length_cons, BitVec.ofNat_add, BitVec.ofNat_mul,
      BitVec.ofNat_toNat, BitVec.setWidth_eq, Prod.mk.injEq]
    have hone : BitVec.ofNat 8 1 = 1 := rfl
    rw [hone]
    constructor <;> ring

theorem fletcher8_eq (x : List Byte) :
    fletcher8 x = (BitVec.ofNat 8 (byteSum x), BitVec.ofNat 8 (weightedByteSum x)) := by
  simp [fletcher8, foldl_fletcherStep]

theorem byteSum_perm {x y : List Byte} (h : x.Perm y) : byteSum x = byteSum y := (h.map _).sum_eq

/-- Settles O3: both sums from the fold over any accumulators; the zero byte is one more step of it, and a sum does not
see the order. -/
theorem fletcherClosedForm : Obligations.FletcherClosedForm := by
  refine ⟨fun x => ?_, fun x => ?_, fun x y hperm => ?_⟩
  · rw [fletcher8_eq]
    exact ⟨BitVec.toNat_ofNat _ _, BitVec.toNat_ofNat _ _⟩
  · simp [fletcher8_append_one, fletcherStep]
  · rw [fletcher8_eq, fletcher8_eq, byteSum_perm hperm]

end Sys2Proof.Machine
end

section
/-! ENCODE, TRANSMIT and SEND_CMD (spec/40_command_encoder.md R92 to R97), with the byte that ends the ACK wait
(spec/41_ack_matcher.md R111, R115): one equation per outcome of the encode, the write and the wait, and the operations
from them. -/

namespace Sys2Proof.Machine

/-! ## The encode -/

theorem badPlen_iff (s : State) : s.badPlen = true ↔ s.par.txpSize < s.argPlen.toNat := by simp [State.badPlen]

theorem execEncode_of_badPlen {s : State} (h : s.badPlen = true) : execEncode s = .next (s.finish false .illegal) :=
  if_pos h

theorem execEncode_of_fits {s : State} (h : ¬ s.badPlen = true) :
    execEncode s = .next ((s.encodeToFrame s.argClass s.argId s.txpPayload).finish true .none) :=
  if_neg h

theorem sendCmdEncode_of_badPlen {s : State} (h : s.badPlen = true) : sendCmdEncode s = s.finish false .illegal :=
  if_pos h

theorem sendCmdEncode_of_fits {s : State} (h : ¬ s.badPlen = true) :
    sendCmdEncode s = { s.encodeToFrame s.argClass s.argId s.txpPayload with phase := 1 } :=
  if_neg h

/-- FRAME_LEN after the encode of the operands (R92, R93). -/
theorem encodeToFrame_txpPayload_frameLen (s : State) :
    (s.encodeToFrame s.argClass s.argId s.txpPayload).frameLen = BitVec.ofNat 32 (s.argPlen.toNat + 8) := by
  simp [State.encodeToFrame, State.txpPayload]

/-- FRAME after the encode of the operands, byte by byte: the frame, and past it what was there (R92, R93). -/
theorem read_encodeToFrame_txpPayload {s : State} (h : s.frame.wf = true) (j : Nat) :
    Memory.read (s.encodeToFrame s.argClass s.argId s.txpPayload).frame j =
      if j < s.argPlen.toNat + 8 then
        (frameBytes s.argClass s.argId (Memory.readRange s.txp 0 s.argPlen.toNat)).getD j 0
      else Memory.read s.frame j := by
  have hlen : (frameBytes s.argClass s.argId s.txpPayload).length = s.argPlen.toNat + 8 := by simp [State.txpPayload]
  have hread := Memory.read_writeRange (frameBytes s.argClass s.argId s.txpPayload) h 0 j
  refine hread.trans ?_
  by_cases hj : j < s.argPlen.toNat + 8
  · rw [dif_pos (by omega), if_pos hj]
    exact (List.getD_eq_getElem _ _ (by omega)).symm
  · rw [dif_neg (by omega), if_neg hj]

/-- Writing the same bytes at the same place again changes nothing. -/
theorem Memory.writeRange_writeRange {m : Memory} (h : m.wf = true) (a : Nat) (vs : List Byte) :
    Memory.writeRange (Memory.writeRange m a vs) a vs = Memory.writeRange m a vs := by
  have hwf := Memory.writeRange_wf vs h a
  refine Memory.ext_of_read (Memory.writeRange_wf vs hwf a) hwf fun b => ?_
  rw [Memory.read_writeRange vs hwf, Memory.read_writeRange vs h]
  split <;> rfl

theorem encodeToFrame_encodeToFrame {s : State} (h : s.frame.wf = true) (c i : Byte) (p : List Byte) :
    (s.encodeToFrame c i p).encodeToFrame c i p = s.encodeToFrame c i p := by
  simp only [State.encodeToFrame, Memory.writeRange_writeRange h]

/-- An encode does not see that the operation before it is over. -/
theorem finish_encodeToFrame_finish (s : State) (ok : Bool) (err : ErrCode) (c i : Byte) (p : List Byte) :
    ((s.finish ok err).encodeToFrame c i p).finish ok err = (s.encodeToFrame c i p).finish ok err := rfl

/-- What ENCODE leaves is what it finds the second time: the operands are as before, and the frame is written over
itself (R94). -/
theorem execEncode_encoded {s : State} (hwf : s.frame.wf = true) (hplen : ¬ s.badPlen = true) :
    execEncode ((s.encodeToFrame s.argClass s.argId s.txpPayload).finish true .none) =
      .next ((s.encodeToFrame s.argClass s.argId s.txpPayload).finish true .none) := by
  have hagain :=
    execEncode_of_fits (s := (s.encodeToFrame s.argClass s.argId s.txpPayload).finish true .none) hplen
  have hoperand : ((s.encodeToFrame s.argClass s.argId s.txpPayload).finish true .none).txpPayload = s.txpPayload := rfl
  rw [hoperand] at hagain
  simpa only [State.finish_unchanged, State.encodeToFrame_unchanged, finish_encodeToFrame_finish,
    encodeToFrame_encodeToFrame hwf] using hagain

/-- Settles O17: the two outcomes of ENCODE, with FRAME read byte by byte. -/
theorem encodeBuildsTheFrame : Obligations.EncodeBuildsTheFrame := by
  refine fun s hwf => ⟨fun hfits => ?_, fun hbad => execEncode_of_badPlen ((badPlen_iff s).2 hbad)⟩
  have hplen : ¬ s.badPlen = true := by rw [badPlen_iff]; omega
  refine ⟨_, ?_, Memory.writeRange_wf _ hwf 0, read_encodeToFrame_txpPayload hwf⟩
  rw [← encodeToFrame_txpPayload_frameLen]
  exact execEncode_of_fits hplen

/-- Settles O18: the second ENCODE checks the same length, and writes the same frame over itself. -/
theorem encodeIsIdempotent : Obligations.EncodeIsIdempotent := by
  intro s t hwf hstep
  replace hstep : execEncode s = .next t := hstep
  by_cases hplen : s.badPlen = true
  · cases (execEncode_of_badPlen hplen).symm.trans hstep
    exact ⟨execEncode_of_badPlen hplen, rfl⟩
  · cases (execEncode_of_fits hplen).symm.trans hstep
    exact ⟨execEncode_encoded hwf hplen, rfl⟩

/-! ## The write -/

theorem txFrame_of_le {s : State} (h : s.frameLen.toNat ≤ s.par.txpSize + 8) :
    s.txFrame = .ok (s.txWrite (Memory.readRange s.frame 0 s.frameLen.toNat)) :=
  if_pos h

theorem noFrame_iff (s : State) : s.noFrame = true ↔ s.frameLen = 0 := by simp [State.noFrame]

theorem execTransmit_of_noFrame {s : State} (h : s.noFrame = true) : execTransmit s = .next (s.finish false .illegal) :=
  if_pos h

theorem execTransmit_of_frame {s : State} (h : ¬ s.noFrame = true) (hle : s.frameLen.toNat ≤ s.par.txpSize + 8) :
    execTransmit s = .next ((s.txWrite (Memory.readRange s.frame 0 s.frameLen.toNat)).finish true .none) := by
  rw [execTransmit, if_neg h, txFrame_of_le hle]

/-- Settles O19: TRANSMIT with a frame, its bytes one by one, and without. -/
theorem transmitSendsTheFrame : Obligations.TransmitSendsTheFrame := by
  refine fun s => ⟨fun hsome hle => ?_, fun hzero => execTransmit_of_noFrame ((noFrame_iff s).2 hzero)⟩
  have hframe : ¬ s.noFrame = true := by rwa [noFrame_iff]
  refine ⟨_, execTransmit_of_frame hframe hle, Memory.readRange_length s.frame 0 _, fun j hj => ?_⟩
  rw [List.getD_eq_getElem _ _ (by simpa using hj), Memory.readRange_getElem, Nat.zero_add]

/-! ## SEND_CMD by its PHASE -/

theorem execSendCmd_of_phase_zero {s : State} (h : s.phase = 0) : execSendCmd s = .next (sendCmdEncode s) := by
  simp only [execSendCmd, h]

theorem execSendCmd_of_phase_one {s : State} (h : s.phase = 1) (hle : s.frameLen.toNat ≤ s.par.txpSize + 8) :
    execSendCmd s = .next { s.txWrite (Memory.readRange s.frame 0 s.frameLen.toNat) with phase := 2 } := by
  simp only [execSendCmd, h, txFrame_of_le hle]

theorem execSendCmd_of_phase_two {s : State} (h : s.phase = 2) : execSendCmd s = .next (sendCmdWait s) := by
  simp only [execSendCmd, h]

/-- The first step of the wait reads T0 (41_ack_matcher.md R112). -/
theorem sendCmdWait_begin {s : State} (h : s.waiting = false) : sendCmdWait s = s.ackBegin := by
  simp [sendCmdWait, State.ackWait, h]

/-- Settles O20: PHASE 0 is the encode, PHASE 1 the write, and PHASE 2 begins the wait. -/
theorem sendCmdEncodesThenTransmitsThenWaits : Obligations.SendCmdEncodesThenTransmitsThenWaits := by
  refine fun s hwf => ⟨fun hphase hfits => ?_, fun hphase hbad => ?_, fun hphase hle => ?_, fun hphase hwait => ?_⟩
  · have hplen : ¬ s.badPlen = true := by rw [badPlen_iff]; omega
    refine ⟨_, ?_, read_encodeToFrame_txpPayload hwf⟩
    rw [← encodeToFrame_txpPayload_frameLen]
    exact (execSendCmd_of_phase_zero hphase).trans (congrArg _ (sendCmdEncode_of_fits hplen))
  · have hplen : s.badPlen = true := (badPlen_iff s).2 hbad
    exact (execSendCmd_of_phase_zero hphase).trans (congrArg _ (sendCmdEncode_of_badPlen hplen))
  · exact execSendCmd_of_phase_one hphase hle
  · exact (execSendCmd_of_phase_two hphase).trans (congrArg _ (sendCmdWait_begin hwait))

/-! ## The end of the ACK wait -/

/-- The id at position 7 completes either template with the branch taken at the marker (41_ack_matcher.md R111). -/
theorem ackStep_last (p : Params) (c i : Byte) (branch : Bool) :
    ackStep p c i 7 branch i = { pos := 0, branch := branch, result := some branch } := by
  have hmatch : i = (ackTemplate p c i).get 7 := rfl
  obtain ⟨hmiss, _⟩ | ⟨_, hpos, _⟩ | ⟨_, _, hstep⟩ := ackStep_cases p c i 7 branch i
  · exact absurd hmatch hmiss
  · exact absurd rfl hpos
  · exact hstep

/-- The byte that completes the template ends the wait, with its branch as ACKED and as the result (R97,
41_ack_matcher.md R115). -/
theorem sendCmdWait_of_last {s : State} {rest : List Byte} (hopen : WaitOpen s) (hpos : s.ackPos = 7)
    (hrx : s.rx = s.argId :: rest) :
    sendCmdWait s =
      { s with
        rx := rest, ackPos := 0, asleep := none, waiting := false
        status := finishedOkOrFail s.ackBranch s.ackBranch } := by
  obtain ⟨hwait, hdeadline⟩ := hopen
  simp only [sendCmdWait, ackWait_byte hwait hdeadline hrx, hpos, ackStep_last]
  rfl

/-- Settles O21: ACK_WAIT and PHASE 2 of SEND_CMD are one wait, and the byte ends it. -/
theorem ackCompletesAckWaitAndSendCmd : Obligations.AckCompletesAckWaitAndSendCmd := by
  intro s rest hopen hpos hrx
  have hend := congrArg (Host.Outcome.next (φ := Fault) (ρ := Refusal)) (sendCmdWait_of_last hopen hpos hrx)
  exact ⟨(execAckWait_eq s).trans hend, fun hphase => (execSendCmd_of_phase_two hphase).trans hend⟩

end Sys2Proof.Machine
end

section
/-! The ACK matcher (spec/41_ack_matcher.md): one engine step of the wait by its outcome (R112, R118, R119), the byte
step by position (R111, R113), and the matcher over a list of bytes, which a run of engine moves over an open wait
follows; the laws of R114, R116 and R121 are about that list. -/

namespace Sys2Proof.Machine

/-! ## One engine step of the wait -/

/-- STATUS after an engine step of an ACK wait: as it was while the matcher has no answer, else the finish (R115). -/
def statusAfterAck (held : Status) : Option Bool → Status
  | none => held
  | some a => finishedOkOrFail a a

/-- Past the deadline the wait fails and takes no byte (R118). -/
theorem sendCmdWait_late {s : State} (hwait : s.waiting = true) (hlate : s.deadline < s.now) :
    sendCmdWait s = { s with asleep := none, waiting := false, status := finishedOkOrFail false false } := by
  simp only [sendCmdWait, ackWait_late hwait hlate]
  rfl

/-- Without a byte the wait sleeps and keeps its match state (R112, R119). -/
theorem sendCmdWait_sleep {s : State} (hopen : WaitOpen s) (hrx : s.rx = []) :
    sendCmdWait s =
      { s with sleeps := s.sleeps ++ [s.par.pollSleepAckMs], asleep := some s.par.pollSleepAckMs } := by
  obtain ⟨hwait, hdeadline⟩ := hopen
  simp [sendCmdWait, State.ackWait, State.ackIter, State.wake, State.sleep, hwait, Nat.not_lt.2 hdeadline, hrx]

/-- With a byte available the wait takes it, and goes on or finishes by the matcher's result (R112, R115). -/
theorem sendCmdWait_byte {s : State} {b : Byte} {rest : List Byte} (hopen : WaitOpen s) (hrx : s.rx = b :: rest) :
    sendCmdWait s =
      { s with
        rx := rest, asleep := none
        ackPos := (ackStep s.par s.argClass s.argId s.ackPos s.ackBranch b).pos
        ackBranch := (ackStep s.par s.argClass s.argId s.ackPos s.ackBranch b).branch
        waiting := (ackStep s.par s.argClass s.argId s.ackPos s.ackBranch b).result.isNone
        status := statusAfterAck s.status (ackStep s.par s.argClass s.argId s.ackPos s.ackBranch b).result } := by
  obtain ⟨hwait, hdeadline⟩ := hopen
  simp only [sendCmdWait, ackWait_byte hwait hdeadline hrx]
  cases (ackStep s.par s.argClass s.argId s.ackPos s.ackBranch b).result <;> rfl

/-- Settles O22: the three outcomes of an iteration, and PHASE 2 of SEND_CMD as the same step. -/
theorem ackWaitIteration : Obligations.AckWaitIteration := by
  refine fun s hwait => ⟨fun hlate => ⟨?_, by decide⟩, fun hdeadline hrx => ?_, fun b rest hdeadline hrx => ?_,
    fun hphase => (execSendCmd_of_phase_two hphase).trans (execAckWait_eq s).symm⟩
  · exact (execAckWait_eq s).trans (congrArg _ (sendCmdWait_late hwait hlate))
  · exact (execAckWait_eq s).trans (congrArg _ (sendCmdWait_sleep ⟨hwait, hdeadline⟩ hrx))
  · refine ⟨_, (execAckWait_eq s).trans (congrArg _ (sendCmdWait_byte ⟨hwait, hdeadline⟩ hrx)), ?_⟩
    exact ⟨rfl, rfl, rfl, rfl, rfl, rfl⟩

/-! ## The templates as lists -/

/-- Below the marker the two templates are the same bytes (R110). -/
theorem templateOf_take_of_le {k : Nat} (hk : k ≤ 3) (p : Params) (c i : Byte) (a a' : Bool) :
    (templateOf p c i a).take k = (templateOf p c i a').take k := by
  have hfirst (x : Bool) : (templateOf p c i x).take k = [sync1, sync2, p.ackClass].take k :=
    List.take_append_of_le_length (l₁ := [sync1, sync2, p.ackClass]) hk
  rw [hfirst, hfirst]

/-- The byte a template has at a position. -/
def templateByte (p : Params) (c i : Byte) (acked : Bool) (pos : Fin 8) : Byte :=
  (if acked then ackTemplate p c i else nakTemplate p c i).get pos

theorem templateOf_getElem (p : Params) (c i : Byte) (acked : Bool) (pos : Fin 8) :
    (templateOf p c i acked)[pos.val]'pos.isLt = templateByte p c i acked pos := by
  have hlist : templateOf p c i acked = (if acked then ackTemplate p c i else nakTemplate p c i).toList := by
    cases acked <;> rfl
  simp only [hlist, templateByte, Vector.get_eq_getElem, Vector.getElem_toList]

theorem templateByte_marker (p : Params) (c i : Byte) (acked : Bool) :
    templateByte p c i acked 3 = if acked then p.ackMark else p.nakMark := by
  cases acked <;> rfl

/-- Off the marker either template has the byte of both. -/
theorem templateByte_of_ne {pos : Fin 8} (h : pos ≠ 3) (p : Params) (c i : Byte) (acked : Bool) :
    templateByte p c i acked pos = (ackTemplate p c i).get pos := by
  cases acked
  · exact (nakTemplate_get p c i pos).trans (if_neg h)
  · rfl

/-! ## One byte into the matcher -/

/-- The branch held at a position is the one of this template; before the marker it is not yet chosen (R114). -/
def BranchAgrees (pos : Fin 8) (branch acked : Bool) : Prop := 3 < pos → branch = acked

/-- The matcher answers at no position but the last. -/
theorem ackStep_result_of_ne {p : Params} {c i : Byte} {pos : Fin 8} (h : pos ≠ 7) (branch : Bool) (b : Byte) :
    (ackStep p c i pos branch b).result = none ∧ (ackStep p c i pos branch b).pos.val ≤ pos.val + 1 := by
  obtain ⟨_, _, hstep⟩ | ⟨_, _, hstep⟩ | ⟨hlast, _⟩ := ackStep_cases p c i pos branch b
  · simp [hstep]
  · refine ⟨by rw [hstep], ?_⟩
    rw [hstep]
    exact (Fin.val_add_one_of_lt (Fin.lt_last_iff_ne_last.2 h)).le
  · exact absurd hlast h

/-- A byte that neither template has at the position is dropped and the match starts again (R113). -/
theorem ackStep_miss {p : Params} {c i : Byte} {pos : Fin 8} {b : Byte} (hack : b ≠ (ackTemplate p c i).get pos)
    (hnak : b ≠ (nakTemplate p c i).get pos) (branch : Bool) :
    ackStep p c i pos branch b = { pos := 0, branch := branch, result := none } := by
  simp [ackStep, hack, hnak]

/-- A byte of the template is accepted where the matcher holds that template's branch, which it then still holds. -/
theorem ackStep_templateByte {p : Params} (hmarks : p.nakMark ≠ p.ackMark) (c i : Byte) {pos : Fin 8} (hlast : pos ≠ 7)
    {branch acked : Bool} (hbranch : BranchAgrees pos branch acked) :
    ∃ branch', ackStep p c i pos branch (templateByte p c i acked pos) =
        { pos := pos + 1, branch := branch', result := none } ∧
      BranchAgrees (pos + 1) branch' acked := by
  have hmatch : templateByte p c i acked pos = (ackTemplate p c i).get pos ∨
      templateByte p c i acked pos = (nakTemplate p c i).get pos := by
    cases acked
    · exact .inr rfl
    · exact .inl rfl
  obtain ⟨hack, hnak, _⟩ | ⟨_, _, hstep⟩ | ⟨heq, _⟩ :=
    ackStep_cases p c i pos branch (templateByte p c i acked pos)
  · exact absurd hmatch (not_or.2 ⟨hack, hnak⟩)
  · refine ⟨_, hstep, fun hafter => ?_⟩
    by_cases hmark : pos = 3
    · subst hmark
      cases acked <;> simp [templateByte_marker, hmarks]
    · rw [if_neg hmark]
      exact hbranch (by omega)
  · exact absurd heq hlast

/-- What the matcher holds of the bytes it has taken: the last of them begin a template, up to its position and with
its branch (R114). -/
def MatchedSoFar (p : Params) (c i : Byte) (used : List Byte) (pos : Fin 8) (branch : Bool) : Prop :=
  ∃ acked, BranchAgrees pos branch acked ∧ (templateOf p c i acked).take pos <:+ used

/-- At position 0 nothing is held. -/
theorem matchedSoFar_zero (p : Params) (c i : Byte) (used : List Byte) (branch : Bool) :
    MatchedSoFar p c i used 0 branch :=
  ⟨branch, fun _ => rfl, List.nil_suffix⟩

/-- The next byte of a template continues what is held of it. -/
theorem templateOf_take_succ_suffix {p : Params} {c i : Byte} {used : List Byte} {pos : Fin 8} {acked : Bool}
    (h : (templateOf p c i acked).take pos <:+ used) :
    (templateOf p c i acked).take (pos + 1) <:+ used ++ [templateByte p c i acked pos] := by
  obtain ⟨before, rfl⟩ := h
  refine ⟨before, ?_⟩
  rw [List.take_succ_eq_append_getElem (l := templateOf p c i acked) pos.isLt, templateOf_getElem, List.append_assoc]

/-- An accepted byte is a template's, and that template is the one of the branch held from there on. -/
theorem accepted_is_templateByte {p : Params} {c i : Byte} {pos : Fin 8} {branch acked : Bool} {b : Byte}
    (hbranch : BranchAgrees pos branch acked)
    (hmatch : b = (ackTemplate p c i).get pos ∨ b = (nakTemplate p c i).get pos) :
    ∃ acked', b = templateByte p c i acked' pos ∧
      (templateOf p c i acked').take pos = (templateOf p c i acked).take pos ∧
      BranchAgrees (pos + 1) (if pos = 3 then decide (b = p.ackMark) else branch) acked' := by
  by_cases hmark : pos = 3
  · subst hmark
    refine ⟨decide (b = p.ackMark), ?_, templateOf_take_of_le le_rfl .., fun _ => rfl⟩
    by_cases hack : b = p.ackMark
    · simp [templateByte_marker, hack]
    · rw [templateByte_marker, decide_eq_false hack]
      exact hmatch.resolve_left hack
  · refine ⟨acked, ?_, rfl, fun hafter => ?_⟩
    · rw [nakTemplate_get, if_neg hmark, or_self] at hmatch
      rw [templateByte_of_ne hmark, hmatch]
    · rw [if_neg hmark]
      exact hbranch (by omega)

/-- One byte keeps what is held, or it completes the template of the answer (R111, R114). -/
theorem MatchedSoFar.after_ackStep {p : Params} {c i : Byte} {used : List Byte} {pos : Fin 8} {branch : Bool}
    (h : MatchedSoFar p c i used pos branch) (b : Byte) :
    ((ackStep p c i pos branch b).result = none ∧
      MatchedSoFar p c i (used ++ [b]) (ackStep p c i pos branch b).pos (ackStep p c i pos branch b).branch) ∨
    ∃ acked, (ackStep p c i pos branch b).result = some acked ∧ templateOf p c i acked <:+ used ++ [b] := by
  obtain ⟨acked, hbranch, hsuffix⟩ := h
  obtain ⟨_, _, hstep⟩ | ⟨hmatch, hlast, hstep⟩ | ⟨rfl, rfl, hstep⟩ := ackStep_cases p c i pos branch b <;> rw [hstep]
  · exact .inl ⟨rfl, matchedSoFar_zero ..⟩
  · obtain ⟨acked', rfl, hsame, hafter⟩ := accepted_is_templateByte hbranch hmatch
    refine .inl ⟨rfl, acked', hafter, ?_⟩
    rw [Fin.val_add_one_of_lt (Fin.lt_last_iff_ne_last.2 hlast)]
    exact templateOf_take_succ_suffix (hsame ▸ hsuffix)
  · cases hbranch (by decide)
    have hwhole := templateOf_take_succ_suffix hsuffix
    rw [templateByte_of_ne (by decide)] at hwhole
    exact .inr ⟨_, rfl, hwhole⟩

/-! ## The matcher over a list of bytes -/

/-- The matcher over bytes that are all available: it stops at its answer, and hands back what it has not taken. -/
def ackScan (p : Params) (c i : Byte) : Fin 8 → Bool → List Byte → Option Bool × List Byte
  | _, _, [] => (none, [])
  | pos, branch, b :: bs =>
    match (ackStep p c i pos branch b).result with
    | none => ackScan p c i (ackStep p c i pos branch b).pos (ackStep p c i pos branch b).branch bs
    | some a => (some a, bs)

theorem ackScan_cons_of_none {p : Params} {c i : Byte} {pos : Fin 8} {branch : Bool} {b : Byte}
    (h : (ackStep p c i pos branch b).result = none) (bs : List Byte) :
    ackScan p c i pos branch (b :: bs) =
      ackScan p c i (ackStep p c i pos branch b).pos (ackStep p c i pos branch b).branch bs := by
  simp only [ackScan, h]

theorem ackScan_cons_of_some {p : Params} {c i : Byte} {pos : Fin 8} {branch a : Bool} {b : Byte}
    (h : (ackStep p c i pos branch b).result = some a) (bs : List Byte) :
    ackScan p c i pos branch (b :: bs) = (some a, bs) := by
  simp only [ackScan, h]

/-- Bytes without a 0xB5 are dropped one by one at position 0 (R113, R121). -/
theorem ackScan_junk (p : Params) (c i : Byte) (branch : Bool) {junk : List Byte} (h : ∀ b ∈ junk, b ≠ sync1)
    (bs : List Byte) : ackScan p c i 0 branch (junk ++ bs) = ackScan p c i 0 branch bs := by
  induction junk with
  | nil => rfl
  | cons b junk ih =>
    obtain ⟨hb, hjunk⟩ := List.forall_mem_cons.1 h
    have hmiss := ackStep_miss (p := p) (c := c) (i := i) (pos := 0) hb hb branch
    rw [List.cons_append, ackScan_cons_of_none (by rw [hmiss]), hmiss, ih hjunk]

/-- The rest of a template, from the position where it is held, is answered and taken whole (R111). -/
theorem ackScan_template_drop {p : Params} (hmarks : p.nakMark ≠ p.ackMark) (c i : Byte) {acked : Bool} (left : Nat) :
    ∀ {pos : Fin 8} {branch : Bool}, pos.val + left = 7 → BranchAgrees pos branch acked →
      ackScan p c i pos branch ((templateOf p c i acked).drop pos) = (some acked, []) := by
  induction left with
  | zero =>
    intro pos branch hpos hbranch
    obtain rfl : pos = 7 := Fin.ext hpos
    cases hbranch (by decide)
    exact ackScan_cons_of_some (by rw [ackStep_last]) []
  | succ left ih =>
    intro pos branch hpos hbranch
    have hlast : pos ≠ 7 := by omega
    have hnext : (pos + 1).val = pos.val + 1 := Fin.val_add_one_of_lt (Fin.lt_last_iff_ne_last.2 hlast)
    obtain ⟨branch', hstep, hafter⟩ := ackStep_templateByte hmarks c i hlast hbranch
    rw [List.drop_eq_getElem_cons (l := templateOf p c i acked) pos.isLt, templateOf_getElem,
      ackScan_cons_of_none (by rw [hstep]), hstep, ← hnext]
    exact ih (pos := pos + 1) (by omega) hafter

/-- Junk without a 0xB5 and then a template: the answer is the template's, and everything is taken (R121). -/
theorem ackScan_junk_template {p : Params} (hmarks : p.nakMark ≠ p.ackMark) (c i : Byte) (branch acked : Bool)
    {junk : List Byte} (h : ∀ b ∈ junk, b ≠ sync1) :
    ackScan p c i 0 branch (junk ++ templateOf p c i acked) = (some acked, []) :=
  (ackScan_junk p c i branch h _).trans
    (ackScan_template_drop hmarks c i 7 (pos := 0) rfl fun hafter => absurd hafter (by decide))

/-- Too few bytes to come past the last position have no answer. -/
theorem ackScan_short (p : Params) (c i : Byte) {bs : List Byte} :
    ∀ {pos : Fin 8} {branch : Bool}, pos.val + bs.length < 8 → ackScan p c i pos branch bs = (none, []) := by
  induction bs with
  | nil => intros; rfl
  | cons b bs ih =>
    intro pos branch hshort
    rw [List.length_cons] at hshort
    have hlast : pos ≠ 7 := by omega
    obtain ⟨hnone, hle⟩ := ackStep_result_of_ne (p := p) (c := c) (i := i) hlast branch b
    rw [ackScan_cons_of_none hnone]
    exact ih (by omega)

/-- A 0xB5 before a template hides it: the template's own 0xB5 breaks the match at index 1 and is dropped, and seven
bytes are left (R113, R121). -/
theorem ackScan_sync1_template (p : Params) (c i : Byte) (branch acked : Bool) :
    ackScan p c i 0 branch (sync1 :: templateOf p c i acked) = (none, []) := by
  have hfirst : ackStep p c i 0 branch sync1 = { pos := 1, branch := branch, result := none } := rfl
  have hbroken : ackStep p c i 1 branch sync1 = { pos := 0, branch := branch, result := none } := rfl
  have htemplate : templateOf p c i acked = sync1 :: (templateOf p c i acked).tail := rfl
  rw [ackScan_cons_of_none (by rw [hfirst]), hfirst, htemplate, ackScan_cons_of_none (by rw [hbroken]), hbroken]
  exact ackScan_short p c i (by simp [templateOf])

/-- What the matcher has taken when it answers stands first among the bytes, and ends in the template of its answer
(R114, R116). -/
theorem MatchedSoFar.suffix_of_ackScan {p : Params} {c i : Byte} {bs : List Byte} :
    ∀ {used : List Byte} {pos : Fin 8} {branch acked : Bool} {left : List Byte},
      MatchedSoFar p c i used pos branch → ackScan p c i pos branch bs = (some acked, left) →
      ∃ taken, bs = taken ++ left ∧ templateOf p c i acked <:+ used ++ taken := by
  induction bs with
  | nil => intro _ _ _ _ _ _ hscan; cases hscan
  | cons b bs ih =>
    intro used pos branch acked left hmatched hscan
    obtain ⟨hnone, hstill⟩ | ⟨a, hsome, hsuffix⟩ := hmatched.after_ackStep b
    · rw [ackScan_cons_of_none hnone] at hscan
      obtain ⟨taken, rfl, hsuffix⟩ := ih hstill hscan
      exact ⟨b :: taken, rfl, by simpa using hsuffix⟩
    · rw [ackScan_cons_of_some hsome] at hscan
      cases hscan
      exact ⟨[b], rfl, hsuffix⟩

/-! ## A run of engine moves -/

/-- An engine move of a running ACK_WAIT is one engine step of the wait (R115). -/
theorem step_ackWait {s : State} {moves : List Move} (hrun : Running s 0x04) (hsched : s.schedule = .engine :: moves) :
    step s = .next (sendCmdWait { s with schedule := moves }) := by
  obtain ⟨hbusy, hop⟩ := hrun
  have hinstr : decodeOp s.curOp = .ackWait := by rw [hop]; rfl
  calc step s = exec (decodeOp s.curOp) { s with schedule := moves } :=
        (step_of_schedule hsched).trans (engineMove_busy hbusy)
    _ = .next (sendCmdWait { s with schedule := moves }) := by
        rw [hinstr]
        exact execAckWait_eq _

/-- Engine moves while idle use up the schedule and change nothing else (log 23). -/
theorem run_engine_idle {s : State} {n : Nat} (hidle : s.status.busy = false)
    (hsched : s.schedule = List.replicate n .engine) :
    Host.Core.run core n s = .next { s with schedule := [] } := by
  induction n generalizing s with
  | zero =>
    rw [List.replicate_zero] at hsched
    rw [← hsched]
    rfl
  | succ n ih =>
    exact (run_succ_of_next n ((step_of_schedule hsched).trans (engineMove_idle hidle))).trans (ih hidle rfl)

/-- An open ACK wait given an engine move for each of some available bytes follows the matcher over them, with the
clock and the transmit stream as they were. -/
theorem run_ackWait {s : State} {bs rest : List Byte} (hrun : Running s 0x04) (hopen : WaitOpen s)
    (hrx : s.rx = bs ++ rest) (hsched : s.schedule = List.replicate bs.length .engine) :
    ∃ t, Host.Core.run core bs.length s = .next t ∧
      t.rx = (ackScan s.par s.argClass s.argId s.ackPos s.ackBranch bs).2 ++ rest ∧
      t.status = statusAfterAck s.status (ackScan s.par s.argClass s.argId s.ackPos s.ackBranch bs).1 ∧
      t.now = s.now ∧ t.tx = s.tx := by
  induction bs generalizing s with
  | nil => exact ⟨s, rfl, hrx, rfl, rfl, rfl⟩
  | cons b bs ih =>
    have hstep := step_ackWait hrun hsched
    rw [sendCmdWait_byte (s := { s with schedule := List.replicate bs.length .engine }) hopen hrx] at hstep
    have hmove := run_succ_of_next bs.length hstep
    rw [List.length_cons, hmove]
    cases hresult : (ackStep s.par s.argClass s.argId s.ackPos s.ackBranch b).result with
    | none =>
      rw [ackScan_cons_of_none hresult]
      exact ih hrun ⟨rfl, hopen.2⟩ rfl rfl
    | some a =>
      rw [ackScan_cons_of_some hresult]
      exact ⟨_, run_engine_idle rfl rfl, rfl, rfl, rfl, rfl⟩

/-- An ACK wait not yet begun takes one engine move more, its start, which clears the matcher (R112, log 5). -/
theorem run_ackWait_begin {s : State} {bs rest : List Byte} (hrun : Running s 0x04) (hwait : s.waiting = false)
    (hrx : s.rx = bs ++ rest) (hsched : s.schedule = List.replicate (bs.length + 1) .engine) :
    ∃ t, Host.Core.run core (bs.length + 1) s = .next t ∧
      t.rx = (ackScan s.par s.argClass s.argId 0 false bs).2 ++ rest ∧
      t.status = statusAfterAck s.status (ackScan s.par s.argClass s.argId 0 false bs).1 ∧
      t.now = s.now ∧ t.tx = s.tx := by
  have hstep := step_ackWait hrun hsched
  rw [sendCmdWait_begin (s := { s with schedule := List.replicate bs.length .engine }) hwait] at hstep
  rw [run_succ_of_next bs.length hstep]
  exact run_ackWait (s := State.ackBegin { s with schedule := List.replicate bs.length .engine })
    hrun ⟨rfl, Nat.le_add_right _ _⟩ hrx rfl

/-- Settles O23: the run is the matcher over the junk and the template, or over the 0xB5 and the template. -/
theorem ackWaitMatchesTemplateAfterJunk : Obligations.AckWaitMatchesTemplateAfterJunk := by
  refine ⟨fun s junk rest acked hjunk hrun hwait hrx hsched => ?_, fun s rest hrun hwait hrx hsched => ?_⟩
  · have hlen : (junk ++ templateOf s.par s.argClass s.argId acked).length + 1 = junk.length + 9 := by
      simp [templateOf]
    have hmoves := run_ackWait_begin hrun hwait hrx (hlen ▸ hsched)
    rwa [hlen, ackScan_junk_template s.inst.nakMark_ne_ackMark _ _ _ _ hjunk] at hmoves
  · obtain ⟨t, hmoves, hleft, hstatus, _⟩ :=
      run_ackWait_begin (bs := sync1 :: templateOf s.par s.argClass s.argId true) hrun hwait hrx hsched
    rw [ackScan_sync1_template] at hleft hstatus
    exact ⟨t, hmoves, hleft, (congrArg Status.busy hstatus).trans hrun.1⟩

/-- Settles O24: the run is the matcher over the next `n` bytes, and the wait is over by the matcher's answer. -/
theorem ackWaitAnswersOnlyOnATemplate : Obligations.AckWaitAnswersOnlyOnATemplate := by
  intro s t n hrun hopen hpos hn hsched hmoves hidle
  have hlen : (s.rx.take n).length = n := List.length_take_of_le hn
  obtain ⟨t', hmoves', hleft, hstatus, _⟩ :=
    run_ackWait hrun hopen (List.take_append_drop n s.rx).symm (hlen.symm ▸ hsched)
  rw [hlen, hmoves] at hmoves'
  cases hmoves'
  generalize hscan : ackScan s.par s.argClass s.argId s.ackPos s.ackBranch (s.rx.take n) = out at hleft hstatus
  obtain ⟨_ | acked, left⟩ := out
  · exact absurd ((congrArg Status.busy hstatus).trans hrun.1) (by simp [hidle])
  · rw [hpos] at hscan
    obtain ⟨taken, htake, hsuffix⟩ := (matchedSoFar_zero _ _ _ [] _).suffix_of_ackScan hscan
    have hrx : s.rx = taken ++ t.rx := by
      rw [hleft, ← List.append_assoc, ← htake, List.take_append_drop]
    have htemplate : templateOf s.par s.argClass s.argId acked <:+ taken := hsuffix
    have hacked : t.status.acked = acked := congrArg Status.acked hstatus
    refine ⟨taken.length, htemplate.length_le, ?_, ?_, ?_⟩
    · have := congrArg List.length htake
      rw [hlen, List.length_append] at this
      omega
    · rw [hrx, List.drop_left]
    · rw [hrx, List.take_left, hacked]
      exact (List.suffix_iff_eq_drop.1 htemplate).symm

end Sys2Proof.Machine
end

section
/-! The payload demultiplexer, one byte at a time (spec/42_payload_demux.md): `dmxStep` by the state it is in (R132 to
R135, R138), one engine step of a receive by its outcome (R131, R136, R137, R144), and what such a step can write of
RESP (R143). -/

namespace Sys2Proof.Machine

/-! ## The byte step, state by state -/

section
variable {v : Bool} {c i : Byte} {cap : Half} {d : Dmx}

theorem dmxStep_of_sync1 (h : d.st = .sync1) (b : Byte) :
    dmxStep v c i cap d b = dmxGo d (if b = sync1 then .sync2 else .sync1) := by
  simp only [dmxStep, h]

theorem dmxStep_of_sync2 (h : d.st = .sync2) (b : Byte) :
    dmxStep v c i cap d b = dmxGo d (if b = sync2 then .cls else .sync1) := by
  simp only [dmxStep, h]

theorem dmxStep_class (h : d.st = .cls) : dmxStep v c i cap d c = dmxGo ((d.clearIf v).accIf v c) .ident := by
  simp only [dmxStep, h, if_true]

theorem dmxStep_of_class_ne (h : d.st = .cls) {b : Byte} (hb : b ≠ c) : dmxStep v c i cap d b = dmxGo d .sync1 := by
  simp only [dmxStep, h, if_neg hb]

theorem dmxStep_ident (h : d.st = .ident) : dmxStep v c i cap d i = dmxGo (d.accIf v i) .lenLo := by
  simp only [dmxStep, h, if_true]

theorem dmxStep_of_ident_ne (h : d.st = .ident) {b : Byte} (hb : b ≠ i) : dmxStep v c i cap d b = dmxGo d .sync1 := by
  simp only [dmxStep, h, if_neg hb]

theorem dmxStep_of_lenLo (h : d.st = .lenLo) (b : Byte) :
    dmxStep v c i cap d b = dmxGo { d.accIf v b with len := b.setWidth 16 } .lenHi := by
  simp only [dmxStep, h]

theorem dmxStep_ckA (h : d.st = .ckA) : dmxStep v c i cap d d.ckA = dmxGo d .ckB := by
  simp only [dmxStep, h, if_true]

theorem dmxStep_of_ckA_ne (h : d.st = .ckA) {b : Byte} (hb : b ≠ d.ckA) : dmxStep v c i cap d b = dmxGo d .sync1 := by
  simp only [dmxStep, h, if_neg hb]

theorem dmxStep_ckB (h : d.st = .ckB) :
    dmxStep v c i cap d d.ckB = { next := d, store := none, result := some (.ok d.len) } := by
  simp only [dmxStep, h, if_true]

theorem dmxStep_of_ckB_ne (h : d.st = .ckB) {b : Byte} (hb : b ≠ d.ckB) : dmxStep v c i cap d b = dmxGo d .sync1 := by
  simp only [dmxStep, h, if_neg hb]

/-- The length that the high length byte completes (R132). -/
def Dmx.declared (d : Dmx) (b : Byte) : Half := d.len ||| (b.setWidth 16 <<< 8)

/-- The byte that ends header and payload: in default mode it ends the receive (R134), in verify mode the checksum
is next (R138). -/
def dmxBodyEnd (verify : Bool) (d : Dmx) (store : Option Nat) : DmxOut :=
  if verify then { next := { d with st := .ckA }, store := store, result := none }
  else { next := d, store := store, result := some (.ok d.len) }

theorem dmxStep_of_declared_gt (h : d.st = .lenHi) {b : Byte} (hcap : cap < d.declared b) :
    dmxStep v c i cap d b =
      { next := { d.accIf v b with len := d.declared b }, store := none, result := some .capExceeded } := by
  obtain ⟨_, hlen, _⟩ := Dmx.accIf_unchanged v d b
  simp only [Dmx.declared] at hcap ⊢
  simp only [dmxStep, h, dmxLenHi, hlen, if_pos hcap]

theorem dmxStep_of_declared_zero (h : d.st = .lenHi) {b : Byte} (hzero : d.declared b = 0) :
    dmxStep v c i cap d b = dmxBodyEnd v { d.accIf v b with len := 0, cnt := 0 } none := by
  obtain ⟨_, hlen, _⟩ := Dmx.accIf_unchanged v d b
  have hcap : ¬ cap < (0 : Half) := Nat.not_lt_zero cap.toNat
  simp only [Dmx.declared] at hzero
  simp only [dmxStep, h, dmxLenHi, hlen, hzero, if_neg hcap, if_true]
  rfl

theorem dmxStep_of_declared_le (h : d.st = .lenHi) {b : Byte} (hcap : d.declared b ≤ cap) (hne : d.declared b ≠ 0) :
    dmxStep v c i cap d b = dmxGo { d.accIf v b with len := d.declared b, cnt := 0 } .payload := by
  obtain ⟨_, hlen, _⟩ := Dmx.accIf_unchanged v d b
  have hguard : ¬ cap < d.declared b := Nat.not_lt.2 hcap
  simp only [Dmx.declared] at hguard hne ⊢
  simp only [dmxStep, h, dmxLenHi, hlen, if_neg hguard, if_neg hne]

theorem dmxStep_payload_last (h : d.st = .payload) (hend : d.cnt + 1 = d.len) (b : Byte) :
    dmxStep v c i cap d b = dmxBodyEnd v { d.accIf v b with cnt := d.len } (some d.cnt.toNat) := by
  obtain ⟨_, hlen, hcnt⟩ := Dmx.accIf_unchanged v d b
  simp only [dmxStep, h, dmxPayload, dmxBodyEnd, hlen, hcnt, hend, if_true]

theorem dmxStep_payload_more (h : d.st = .payload) (hmore : d.cnt + 1 ≠ d.len) (b : Byte) :
    dmxStep v c i cap d b =
      { next := { d.accIf v b with cnt := d.cnt + 1 }, store := some d.cnt.toNat, result := none } := by
  obtain ⟨_, hlen, hcnt⟩ := Dmx.accIf_unchanged v d b
  simp only [dmxStep, h, dmxPayload, hlen, hcnt, if_neg hmore]

end

/-- The declared length as a number, from its two bytes (R132). -/
theorem Dmx.declared_toNat {d : Dmx} (h : d.len.toNat < 256) (b : Byte) :
    (d.declared b).toNat = d.len.toNat + 256 * b.toNat := by
  have hb := b.isLt
  have hshift : (b.setWidth 16 <<< 8 : Half).toNat = 2 ^ 8 * b.toNat := by
    simp only [BitVec.toNat_shiftLeft, BitVec.toNat_setWidth, Nat.shiftLeft_eq]
    omega
  rw [Dmx.declared, BitVec.toNat_or, hshift, Nat.or_comm, ← Nat.two_pow_add_eq_or_of_lt h]
  omega

/-- Settles O29: the four states that hunt for a header, each with a byte it does not expect. -/
theorem headerMismatchDropsTheByte : Obligations.HeaderMismatchDropsTheByte := by
  rintro v c i cap d b (⟨hst, hb⟩ | ⟨hst, hb⟩ | ⟨hst, hb⟩ | ⟨hst, hb⟩)
  · exact (dmxStep_of_sync1 hst b).trans (congrArg (dmxGo d) (if_neg hb))
  · exact (dmxStep_of_sync2 hst b).trans (congrArg (dmxGo d) (if_neg hb))
  · exact dmxStep_of_class_ne hst hb
  · exact dmxStep_of_ident_ne hst hb

/-! ## One engine step of a receive -/

/-- RESP after a byte that is copied to an index, or is not copied. -/
def Memory.copy (m : Memory) : Option Nat → Byte → Memory
  | none, _ => m
  | some k, b => Memory.write m k b

/-- RESULT_LEN after an engine step of a receive: as it was while there is no result (R136). -/
def lengthAfterRecv (held : Half) : Option RecvResult → Half
  | none => held
  | some r => r.length

/-- STATUS after an engine step of a receive: as it was while there is no result, else the finish (R136). -/
def statusAfterRecv (held : Status) : Option RecvResult → Status
  | none => held
  | some r => finished r.succeeded r.err held.acked

/-- The state after a receive has taken a byte, from what the demultiplexer answered to it (R131, R136). -/
def State.afterRecvByte (s : State) (o : DmxOut) (b : Byte) (rest : List Byte) : State :=
  { s with
    rx := rest, asleep := none, dmx := o.next, resp := s.resp.copy o.store b, waiting := o.result.isNone
    resultLen := lengthAfterRecv s.resultLen o.result, status := statusAfterRecv s.status o.result }

/-- With a byte available a receive takes it, and goes on or finishes by the demultiplexer's result (R131, R136). -/
theorem recvStepFinish_byte {s : State} {b : Byte} {rest : List Byte} {o : DmxOut} (hopen : WaitOpen s)
    (hrx : s.rx = b :: rest) (ho : dmxStep s.par.verifyRxChecksum s.argClass s.argId s.argCap s.dmx b = o)
    (hstore : ∀ k, o.store = some k → k < s.par.respSize) :
    recvStepFinish s = .next (s.afterRecvByte o b rest) := by
  obtain ⟨hwait, hdeadline⟩ := hopen
  subst ho
  cases hk : (dmxStep s.par.verifyRxChecksum s.argClass s.argId s.argCap s.dmx b).store with
  | none =>
    simp only [recvStepFinish, recvWait_byte hwait hdeadline hrx hk, State.afterRecvByte, hk]
    cases (dmxStep s.par.verifyRxChecksum s.argClass s.argId s.argCap s.dmx b).result <;> rfl
  | some k =>
    simp only [recvStepFinish, recvWait_copy hwait hdeadline hrx hk (hstore k hk), State.afterRecvByte, hk]
    cases (dmxStep s.par.verifyRxChecksum s.argClass s.argId s.argCap s.dmx b).result <;> rfl

/-- Past the deadline a receive fails and takes no byte (R137). -/
theorem recvStepFinish_late {s : State} (hwait : s.waiting = true) (hlate : s.deadline < s.now) :
    recvStepFinish s =
      .next { s with
        asleep := none, waiting := false, resultLen := 0, status := finished false .fail s.status.acked } := by
  simp only [recvStepFinish, recvWait_late hwait hlate]
  rfl

/-- Without a byte a receive sleeps and keeps its state (R131, R144). -/
theorem recvStepFinish_sleep {s : State} (hopen : WaitOpen s) (hrx : s.rx = []) :
    recvStepFinish s =
      .next { s with
        sleeps := s.sleeps ++ [s.par.pollSleepDmxMs], asleep := some s.par.pollSleepDmxMs } := by
  obtain ⟨hwait, hdeadline⟩ := hopen
  simp [recvStepFinish, State.recvWait, State.recvIter, State.wake, State.sleep, hwait, Nat.not_lt.2 hdeadline, hrx]

theorem badCap_iff (s : State) : s.badCap = true ↔ s.par.respSize < s.argCap.toNat := by simp [State.badCap]

/-- The argument check is before the receive begins, not in it (R136). -/
theorem execRecvPayload_of_waiting {s : State} (h : s.waiting = true) : exec .recvPayload s = recvStepFinish s :=
  if_neg fun ⟨hwait, _⟩ => by simp [h] at hwait

theorem execRecvPayload_of_badCap {s : State} (hwait : s.waiting = false) (h : s.badCap = true) :
    exec .recvPayload s = .next (s.finish false .illegal) :=
  if_pos ⟨hwait, h⟩

/-- A receive that passes the argument check begins, in a step that takes no byte (R131, R136). -/
theorem execRecvPayload_begin {s : State} (hwait : s.waiting = false) (h : s.argCap.toNat ≤ s.par.respSize) :
    exec .recvPayload s = .next s.recvBegin := by
  have hcheck : ¬ (s.waiting = false ∧ s.badCap = true) := fun ⟨_, hbad⟩ => Nat.not_lt.2 h ((badCap_iff s).1 hbad)
  have hbegin : recvStepFinish s = .next s.recvBegin := by simp [recvStepFinish, State.recvWait, hwait]
  exact (if_neg hcheck).trans hbegin

/-- PHASE 2 of POLL is the receive (R140). -/
theorem execPoll_of_phase_two {s : State} (h : s.phase = 2) : exec .poll s = recvStepFinish s := by
  simp only [exec, execPoll, h]

theorem execPoll_of_badCap {s : State} (hphase : s.phase = 0) (h : s.badCap = true) :
    exec .poll s = .next (s.finish false .illegal) := by
  simp only [exec, execPoll, hphase, h, if_true]

/-- In an open receive, PHASE 2 of POLL and RECV_PAYLOAD are the same step (R136, R140). -/
theorem execPoll_eq_execRecvPayload {s : State} (hwait : s.waiting = true) (hphase : s.phase = 2) :
    exec .poll s = exec .recvPayload s :=
  (execPoll_of_phase_two hphase).trans (execRecvPayload_of_waiting hwait).symm

/-- A byte that is not copied, in an open RECV_PAYLOAD. -/
theorem execRecvPayload_byte {s : State} {b : Byte} {rest : List Byte} {o : DmxOut} (hopen : WaitOpen s)
    (hrx : s.rx = b :: rest) (ho : dmxStep s.par.verifyRxChecksum s.argClass s.argId s.argCap s.dmx b = o)
    (hstore : o.store = none) : exec .recvPayload s = .next (s.afterRecvByte o b rest) :=
  (execRecvPayload_of_waiting hopen.1).trans
    (recvStepFinish_byte hopen hrx ho fun k hk => by rw [hstore] at hk; cases hk)

/-- A byte that only moves the demultiplexer on, in an open RECV_PAYLOAD. -/
theorem execRecvPayload_go {s : State} {b : Byte} {rest : List Byte} {d : Dmx} {st : DmxState} (hopen : WaitOpen s)
    (hrx : s.rx = b :: rest)
    (ho : dmxStep s.par.verifyRxChecksum s.argClass s.argId s.argCap s.dmx b = dmxGo d st) :
    exec .recvPayload s = .next { s with rx := rest, asleep := none, dmx := { d with st := st } } := by
  rw [execRecvPayload_byte hopen hrx ho rfl]
  simp [State.afterRecvByte, dmxGo, Memory.copy, lengthAfterRecv, statusAfterRecv, hopen.1]

/-- Settles O25: both bytes end header and payload, and default mode has nothing after them. -/
theorem receiveCompletesInDefaultMode : Obligations.ReceiveCompletesInDefaultMode := by
  refine fun s b rest hopen hdefault hrx hwf => ⟨fun hst hend hinside => ?_, fun hst hlen hb => ?_⟩
  · have hstep : dmxStep s.par.verifyRxChecksum s.argClass s.argId s.argCap s.dmx b =
        dmxBodyEnd false { s.dmx with cnt := s.dmx.len } (some s.dmx.cnt.toNat) := by
      rw [hdefault]
      exact dmxStep_payload_last hst hend b
    have hrecv := recvStepFinish_byte hopen hrx hstep fun k hk => by cases hk; exact hinside
    exact ⟨_, (execRecvPayload_of_waiting hopen.1).trans hrecv,
      fun hphase => (execPoll_of_phase_two hphase).trans hrecv, rfl, fun j => Memory.read_write hwf _ j b⟩
  · have hzero : s.dmx.declared b = 0 := by rw [Dmx.declared, hlen, hb]; rfl
    have hstep : dmxStep s.par.verifyRxChecksum s.argClass s.argId s.argCap s.dmx b =
        dmxBodyEnd false { s.dmx with len := 0, cnt := 0 } none := by
      rw [hdefault]
      exact dmxStep_of_declared_zero hst hzero
    have hexec := execRecvPayload_byte hopen hrx hstep rfl
    refine ⟨_, hexec, fun hphase => (execPoll_eq_execRecvPayload hopen.1 hphase).trans hexec, ?_⟩
    -- DMX_LEN and RESULT_LEN are written with the 0 that DMX_LEN holds.
    rw [← hlen]
    rfl

/-- Settles O26: the second checksum byte as computed, and each of the two not as computed. -/
theorem receiveCompletesInVerifyMode : Obligations.ReceiveCompletesInVerifyMode := by
  refine fun s b rest hopen hverify hrx => ⟨fun hst hb => ?_, fun hst hb => ?_, fun hst hb => ?_⟩
  · subst hb
    have hexec := execRecvPayload_byte hopen hrx (dmxStep_ckB hst) rfl
    exact ⟨_, hexec, fun hphase => (execPoll_eq_execRecvPayload hopen.1 hphase).trans hexec, rfl⟩
  · exact execRecvPayload_go hopen hrx (dmxStep_of_ckB_ne hst hb)
  · exact execRecvPayload_go hopen hrx (dmxStep_of_ckA_ne hst hb)

/-- Settles O27: the guard compares the declared length, a number of two bytes, with the capacity. -/
theorem capacityGuard : Obligations.CapacityGuard := by
  intro s b rest hopen hst hlen hrx
  have hdeclared := Dmx.declared_toNat hlen b
  refine ⟨fun hcap => ?_, fun hcap hne => ?_⟩
  · have hgt : s.argCap < s.dmx.declared b := by rwa [BitVec.lt_def, hdeclared]
    exact ⟨_, execRecvPayload_byte hopen hrx (dmxStep_of_declared_gt hst hgt) rfl,
      execPoll_eq_execRecvPayload hopen.1⟩
  · have hle : s.dmx.declared b ≤ s.argCap := by rwa [BitVec.le_def, hdeclared]
    have hne' : s.dmx.declared b ≠ 0 := fun h => hne (by rw [← hdeclared, h]; rfl)
    exact ⟨_, execRecvPayload_go hopen hrx (dmxStep_of_declared_le hst hle hne'), rfl, rfl, hdeclared⟩

/-- Settles O28: past the deadline, within it without a byte, and the argument check of each operation. -/
theorem receiveWithoutAByte : Obligations.ReceiveWithoutAByte := by
  refine fun s => ⟨fun hwait hlate => ?_, fun hwait hdeadline hrx => ?_, fun hwait hcap => ?_, fun hphase hcap => ?_⟩
  · exact ⟨(execRecvPayload_of_waiting hwait).trans (recvStepFinish_late hwait hlate),
      execPoll_eq_execRecvPayload hwait⟩
  · exact ⟨(execRecvPayload_of_waiting hwait).trans (recvStepFinish_sleep ⟨hwait, hdeadline⟩ hrx),
      execPoll_eq_execRecvPayload hwait⟩
  · rw [execRecvPayload_of_badCap hwait ((badCap_iff s).2 hcap)]
    simp [State.finish, finished, hwait]
  · exact execPoll_of_badCap hphase ((badCap_iff s).2 hcap)

/-! ## What a receive can write of RESP -/

/-- RESP is as it was, or one byte of it is written: an open receive's, in the PAYLOAD state, at DMX_CNT (R143). -/
def CopiesAtMostOneByte (s t : State) : Prop :=
  t.resp = s.resp ∨
    (s.waiting = true ∧ s.dmx.st = .payload ∧ ∃ b, t.resp = Memory.write s.resp s.dmx.cnt.toNat b)

theorem recvWait_copiesAtMostOneByte {s t : State} {c i : Byte} {cap : Half} {r : Option RecvResult}
    (h : s.recvWait c i cap = .ok (t, r)) : CopiesAtMostOneByte s t := by
  obtain ⟨_, rfl, _⟩ | ⟨_, _, rfl, _⟩ | ⟨_, _, _, rfl, _⟩ | ⟨hwait, _, b, rest, _, _, _, rfl⟩ := recvWait_cases h
  · exact .inl rfl
  · exact .inl rfl
  · exact .inl rfl
  · cases hstore : (dmxStep s.par.verifyRxChecksum c i cap s.dmx b).store with
    | none => exact .inl rfl
    | some k =>
      obtain ⟨hst, rfl⟩ := dmxStep_store hstore
      exact .inr ⟨hwait, hst, b, rfl⟩

theorem recvStepFinish_copiesAtMostOneByte {s t : State} (h : recvStepFinish s = .next t) :
    CopiesAtMostOneByte s t := by
  obtain hw | ⟨u, r, hw, rfl⟩ := recvStepFinish_cases h
  · exact recvWait_copiesAtMostOneByte hw
  · exact recvWait_copiesAtMostOneByte (t := u) hw

/-- A decode reads RESP and does not write it (20_memory.md R54). -/
theorem acquireEnd_resp (s : State) (r : RecvResult) : (acquireEnd s r).resp = s.resp := by
  unfold acquireEnd
  split
  · obtain ⟨f, a, heq⟩ := acquireEndGen2_eq s r
    simp [heq]
  · obtain ⟨f, a, acc, cap, heq | heq⟩ := acquireEndGen1_cases s (s.phase / 3) r <;> simp [heq]

theorem execAcquireFix_copiesAtMostOneByte {s t : State} (h : execAcquireFix s = .next t) :
    CopiesAtMostOneByte s t := by
  obtain ⟨c, i, rfl⟩ | ⟨c, i, hw⟩ | ⟨c, i, u, r, hw, rfl⟩ := execAcquireFix_cases h
  · obtain ⟨acc, cap, heq⟩ := acquireInit_eq s
    exact .inl (by simp [heq])
  · exact recvWait_copiesAtMostOneByte hw
  · have hcopies := recvWait_copiesAtMostOneByte hw
    rwa [CopiesAtMostOneByte, ← acquireEnd_resp u r] at hcopies

/-- The three operations that receive (R143). -/
theorem exec_copiesAtMostOneByte {s t : State} (hop : receives s.curOp) (h : exec (decodeOp s.curOp) s = .next t) :
    CopiesAtMostOneByte s t := by
  obtain hop | hop | hop := hop <;> rw [hop] at h
  · obtain rfl | hrecv := execRecvPayload_cases (s := s) h
    · exact .inl rfl
    · exact recvStepFinish_copiesAtMostOneByte hrecv
  · obtain rfl | rfl | hrecv := execPoll_cases (s := s) h
    · exact .inl rfl
    · exact .inl rfl
    · exact recvStepFinish_copiesAtMostOneByte hrecv
  · exact execAcquireFix_copiesAtMostOneByte h

/-- Settles O33: the one byte an engine step can write is at DMX_CNT, which the invariant bounds. -/
theorem receiveFootprint : Obligations.ReceiveFootprint := by
  intro s t hinside hwf hbusy hop hstep j hchanged
  obtain hsame | ⟨hwait, hst, b, hwrite⟩ := exec_copiesAtMostOneByte hop hstep
  · exact absurd (by rw [hsame]) hchanged
  · rw [hwrite, Memory.read_write hwf] at hchanged
    obtain rfl : j = s.dmx.cnt.toNat := by
      by_contra hne
      exact hchanged (if_neg hne)
    obtain ⟨hcnt, hlen⟩ := hinside.payload hbusy hop hwait hst
    exact ⟨rfl, hst, hcnt.trans_le hlen⟩

end Sys2Proof.Machine
end

section
/-! The demultiplexer over a list of bytes (spec/42_payload_demux.md): the part of an unrelated frame that is dropped,
the header and payload of the awaited one, and its checksum bytes (R132 to R135, R138, R139). A run of engine moves
over an open receive follows it, and the laws of R138 and R142 about whole frames are about that list. -/

namespace Sys2Proof.Machine

/-! ## The demultiplexer over a list of bytes -/

/-- What the demultiplexer comes to over some bytes: its state, RESP, the result if the receive is over, and the
bytes then not taken. -/
structure RecvScan where
  dmx : Dmx
  resp : Memory
  result : Option RecvResult
  left : List Byte

/-- The demultiplexer over bytes that are all available: it stops at its result. -/
def dmxScan (v : Bool) (c i : Byte) (cap : Half) : Dmx → Memory → List Byte → RecvScan
  | d, m, [] => { dmx := d, resp := m, result := none, left := [] }
  | d, m, b :: bs =>
    match (dmxStep v c i cap d b).result with
    | none => dmxScan v c i cap (dmxStep v c i cap d b).next (m.copy (dmxStep v c i cap d b).store b) bs
    | some r =>
      { dmx := (dmxStep v c i cap d b).next, resp := m.copy (dmxStep v c i cap d b).store b
        result := some r, left := bs }

/-- The demultiplexer once header and payload of the awaited frame are taken: in default mode the receive is over
(R134), in verify mode the checksum bytes are next (R138). -/
def dmxAfterBody (v : Bool) (c i : Byte) (cap : Half) (d : Dmx) (m : Memory) (bs : List Byte) : RecvScan :=
  if v then dmxScan v c i cap { d with st := .ckA } m bs
  else { dmx := d, resp := m, result := some (.ok d.len), left := bs }

theorem dmxAfterBody_default (c i : Byte) (cap : Half) (d : Dmx) (m : Memory) (bs : List Byte) :
    dmxAfterBody false c i cap d m bs = { dmx := d, resp := m, result := some (.ok d.len), left := bs } := rfl

theorem dmxAfterBody_verify (c i : Byte) (cap : Half) (d : Dmx) (m : Memory) (bs : List Byte) :
    dmxAfterBody true c i cap d m bs = dmxScan true c i cap { d with st := .ckA } m bs := rfl

/-- In verify mode the running checksum is that of the bytes taken since the class byte (R138). -/
def Dmx.Sums (v : Bool) (d : Dmx) (x : List Byte) : Prop := v = true → (d.ckA, d.ckB) = fletcher8 x

theorem Dmx.sums_clearIf (v : Bool) (d : Dmx) : (d.clearIf v).Sums v [] := by
  rintro rfl
  rfl

theorem Dmx.Sums.accIf {v : Bool} {d : Dmx} {x : List Byte} (h : d.Sums v x) (b : Byte) :
    (d.accIf v b).Sums v (x ++ [b]) := by
  rintro rfl
  rw [fletcher8_append_one, ← h rfl]
  rfl

section
variable {v : Bool} {c i : Byte} {cap : Half} {d : Dmx}

theorem dmxScan_cons_of_none {b : Byte} {o : DmxOut} (ho : dmxStep v c i cap d b = o) (hr : o.result = none)
    (m : Memory) (bs : List Byte) :
    dmxScan v c i cap d m (b :: bs) = dmxScan v c i cap o.next (m.copy o.store b) bs := by
  subst ho
  simp only [dmxScan, hr]

theorem dmxScan_cons_of_some {b : Byte} {o : DmxOut} {r : RecvResult} (ho : dmxStep v c i cap d b = o)
    (hr : o.result = some r) (m : Memory) (bs : List Byte) :
    dmxScan v c i cap d m (b :: bs) = { dmx := o.next, resp := m.copy o.store b, result := some r, left := bs } := by
  subst ho
  simp only [dmxScan, hr]

theorem dmxScan_cons_go {b : Byte} {d' : Dmx} {st : DmxState} (h : dmxStep v c i cap d b = dmxGo d' st) (m : Memory)
    (bs : List Byte) : dmxScan v c i cap d m (b :: bs) = dmxScan v c i cap { d' with st := st } m bs :=
  dmxScan_cons_of_none h rfl m bs

theorem dmxScan_cons_bodyEnd {b : Byte} {d' : Dmx} {k : Option Nat} (h : dmxStep v c i cap d b = dmxBodyEnd v d' k)
    (m : Memory) (bs : List Byte) :
    dmxScan v c i cap d m (b :: bs) = dmxAfterBody v c i cap d' (m.copy k b) bs := by
  cases v
  · exact dmxScan_cons_of_some h rfl m bs
  · exact dmxScan_cons_of_none h rfl m bs

/-! ## Bytes that are dropped -/

/-- Bytes without a 0xB5 are dropped one by one in SYNC1 (R135). -/
theorem dmxScan_hunt (hst : d.st = .sync1) {junk : List Byte} (h : ∀ b ∈ junk, b ≠ sync1) (m : Memory)
    (bs : List Byte) : dmxScan v c i cap d m (junk ++ bs) = dmxScan v c i cap d m bs := by
  induction junk with
  | nil => rfl
  | cons b junk ih =>
    obtain ⟨hb, hjunk⟩ := List.forall_mem_cons.1 h
    have hstay : ({ d with st := .sync1 } : Dmx) = d := by rw [← hst]
    have hdrop := (dmxStep_of_sync1 (v := v) (c := c) (i := i) (cap := cap) hst b).trans
      (congrArg (dmxGo d) (if_neg hb))
    rw [List.cons_append, dmxScan_cons_go hdrop, hstay, ih hjunk]

/-- The two sync bytes lead to CLASS (R132). -/
theorem dmxScan_sync (hst : d.st = .sync1) (m : Memory) (bs : List Byte) :
    dmxScan v c i cap d m (sync1 :: sync2 :: bs) = dmxScan v c i cap { d with st := .cls } m bs := by
  rw [dmxScan_cons_go ((dmxStep_of_sync1 hst sync1).trans (congrArg (dmxGo d) (if_pos rfl))),
    dmxScan_cons_go ((dmxStep_of_sync2 rfl sync2).trans (congrArg (dmxGo _) (if_pos rfl)))]

/-- A frame of another message, with no 0xB5 from its id on, leaves the demultiplexer in SYNC1 and RESP untouched,
whichever of class and id is the other one (R135, R142). -/
theorem dmxScan_otherFrame (hst : d.st = .sync1) {c' i' : Byte} (hother : (c', i') ≠ (c, i)) {p : List Byte}
    {a b : Byte} (hquiet : ∀ x ∈ (frameWith c' i' p a b).drop 3, x ≠ 0xB5) (m : Memory) (bs : List Byte) :
    ∃ d' : Dmx, d'.st = .sync1 ∧
      dmxScan v c i cap d m (frameWith c' i' p a b ++ bs) = dmxScan v c i cap d' m bs := by
  have hframe : frameWith c' i' p a b = sync1 :: sync2 :: c' :: i' :: (frameWith c' i' p a b).drop 4 := rfl
  have hdrop : (frameWith c' i' p a b).drop 3 = i' :: (frameWith c' i' p a b).drop 4 := rfl
  rw [hdrop] at hquiet
  generalize (frameWith c' i' p a b).drop 4 = body at hframe hquiet
  rw [hframe, List.cons_append, List.cons_append, dmxScan_sync hst, List.cons_append]
  by_cases hc : c' = c
  · subst hc
    have hi : i' ≠ i := fun h => hother (by rw [h])
    rw [dmxScan_cons_go (dmxStep_class rfl), List.cons_append, dmxScan_cons_go (dmxStep_of_ident_ne rfl hi)]
    exact ⟨_, rfl, dmxScan_hunt rfl (List.forall_mem_cons.1 hquiet).2 m bs⟩
  · rw [dmxScan_cons_go (dmxStep_of_class_ne rfl hc)]
    exact ⟨_, rfl, dmxScan_hunt rfl hquiet m bs⟩

/-! ## The awaited frame -/

/-- A frame up to its checksum bytes: what default mode takes of the awaited frame (R134, R139). -/
def frameBody (c i : Byte) (p : List Byte) : List Byte := [sync1, sync2] ++ frameHeader c i p.length ++ p

theorem frameBody_length (c i : Byte) (p : List Byte) : (frameBody c i p).length = p.length + 6 := by
  simp [frameBody]
  omega

theorem frameWith_eq_frameBody (c i : Byte) (p : List Byte) (a b : Byte) :
    frameWith c i p a b = frameBody c i p ++ [a, b] := rfl

/-- What a receive takes of the awaited frame: all of it in verify mode (R138), and in default mode all but the
checksum bytes (R139). -/
def frameTaken (v : Bool) (c i : Byte) (p : List Byte) : List Byte := if v then frameBytes c i p else frameBody c i p

theorem frameTaken_default (c i : Byte) (p : List Byte) : frameTaken false c i p = frameBody c i p := rfl

theorem frameTaken_verify (c i : Byte) (p : List Byte) : frameTaken true c i p = frameBytes c i p := rfl

theorem frameTaken_length (v : Bool) (c i : Byte) (p : List Byte) :
    (frameTaken v c i p).length = p.length + 6 + if v then 2 else 0 := by
  cases v
  · exact frameBody_length c i p
  · exact frameBytes_length c i p

/-- The encoder's frame is what a receive takes of it and what default mode then leaves in the stream (R139). -/
theorem frameBytes_eq_frameTaken_append (v : Bool) (c i : Byte) (p : List Byte) :
    frameBytes c i p = frameTaken v c i p ++ if v then [] else (frameBytes c i p).drop (6 + p.length) := by
  cases v
  · simp only [frameBytes_eq, frameWith_checksum, Bool.false_eq_true, if_false]
    rfl
  · exact (List.append_nil _).symm

/-- A header byte that moves the demultiplexer on is summed up (R138). -/
theorem dmxScan_cons_sums {b : Byte} {d' : Dmx} {st : DmxState} {x : List Byte}
    (h : dmxStep v c i cap d b = dmxGo (d'.accIf v b) st) (hsums : d'.Sums v x) (m : Memory) :
    ∃ d'' : Dmx, d''.st = st ∧ d''.Sums v (x ++ [b]) ∧
      ∀ bs, dmxScan v c i cap d m (b :: bs) = dmxScan v c i cap d'' m bs :=
  ⟨{ d'.accIf v b with st := st }, rfl, hsums.accIf b, dmxScan_cons_go h m⟩

/-- The awaited header up to the low length byte leads to LEN_HI, that byte taken as the length so far (R132). -/
theorem dmxScan_header (hst : d.st = .sync1) (lo : Byte) (m : Memory) :
    ∃ d' : Dmx, d'.st = .lenHi ∧ d'.len = lo.setWidth 16 ∧ d'.Sums v [c, i, lo] ∧
      ∀ bs, dmxScan v c i cap d m (sync1 :: sync2 :: c :: i :: lo :: bs) = dmxScan v c i cap d' m bs := by
  obtain ⟨d₁, hst₁, hsums₁, hscan₁⟩ := dmxScan_cons_sums (v := v) (i := i) (cap := cap)
    (dmxStep_class (d := { d with st := .cls }) rfl) (Dmx.sums_clearIf v _) m
  obtain ⟨d₂, hst₂, hsums₂, hscan₂⟩ := dmxScan_cons_sums (c := c) (cap := cap) (dmxStep_ident hst₁) hsums₁ m
  refine ⟨{ d₂.accIf v lo with st := .lenHi, len := lo.setWidth 16 }, rfl, rfl, hsums₂.accIf lo, fun bs => ?_⟩
  rw [dmxScan_sync hst, hscan₁, hscan₂, dmxScan_cons_go (dmxStep_of_lenLo hst₂ lo)]

/-- The payload from DMX_CNT on is copied to RESP byte by byte, and its last byte ends header and payload (R132). -/
theorem dmxScan_payload (q : List Byte) : ∀ {d : Dmx} {x : List Byte} {b : Byte}, d.st = .payload →
    d.cnt.toNat + (b :: q).length = d.len.toNat → d.Sums v x → ∀ m : Memory,
    ∃ d' : Dmx, d'.len = d.len ∧ d'.Sums v (x ++ b :: q) ∧
      ∀ bs, dmxScan v c i cap d m (b :: q ++ bs) =
        dmxAfterBody v c i cap d' (m.writeRange d.cnt.toNat (b :: q)) bs := by
  induction q with
  | nil =>
    intro d x b hst hlen hsums m
    obtain ⟨_, hkeep, _⟩ := Dmx.accIf_unchanged v d b
    have hend : d.cnt + 1 = d.len := by
      rw [List.length_singleton] at hlen
      bv_omega
    exact ⟨{ d.accIf v b with cnt := d.len }, hkeep, hsums.accIf b,
      dmxScan_cons_bodyEnd (dmxStep_payload_last hst hend b) m⟩
  | cons b' q ih =>
    intro d x b hst hlen hsums m
    obtain ⟨hst', hkeep, _⟩ := Dmx.accIf_unchanged v d b
    have hbound := d.len.isLt
    simp only [List.length_cons] at hlen
    have hcnt : (d.cnt + 1).toNat = d.cnt.toNat + 1 := by bv_omega
    have hmore : d.cnt + 1 ≠ d.len := fun h => by rw [h] at hcnt; omega
    obtain ⟨d', hlen', hsums', hscan⟩ := ih (d := { d.accIf v b with cnt := d.cnt + 1 }) (b := b')
      (hst'.trans hst) (by simp only [hkeep, hcnt, List.length_cons]; omega) (hsums.accIf b)
      (Memory.write m d.cnt.toNat b)
    refine ⟨d', hlen'.trans hkeep, by simpa using hsums', fun bs => ?_⟩
    rw [hcnt] at hscan
    exact (dmxScan_cons_of_none (dmxStep_payload_more hst hmore b) rfl m _).trans (hscan bs)

/-- Header and payload of the awaited frame: RESP gets the payload, DMX_LEN is its length, and in verify mode the
checksum over both is ready (R132, R133, R138). -/
theorem dmxScan_frameBody (hst : d.st = .sync1) {p : List Byte} (hp : p.length ≤ cap.toNat) (m : Memory) :
    ∃ d' : Dmx, d'.len.toNat = p.length ∧ d'.Sums v (frameHeader c i p.length ++ p) ∧
      ∀ bs, dmxScan v c i cap d m (frameBody c i p ++ bs) = dmxAfterBody v c i cap d' (m.writeRange 0 p) bs := by
  obtain ⟨d₀, hst₀, hlen₀, hsums₀, hheader⟩ :=
    dmxScan_header (v := v) (c := c) (i := i) (cap := cap) hst (lowByte (BitVec.ofNat 16 p.length)) m
  have hlo : d₀.len.toNat = (lowByte (BitVec.ofNat 16 p.length)).toNat := by
    rw [hlen₀]
    exact BitVec.toNat_setWidth_of_le (by decide)
  have hdeclared : (d₀.declared (highByte (BitVec.ofNat 16 p.length))).toNat = p.length := by
    have hcap := cap.isLt
    rw [Dmx.declared_toNat (hlo ▸ BitVec.isLt _), hlo, ← le16_toNat]
    exact le16_low_high_ofNat (by omega)
  have hfirst (bs : List Byte) : dmxScan v c i cap d m (frameBody c i p ++ bs) =
      dmxScan v c i cap d₀ m (highByte (BitVec.ofNat 16 p.length) :: (p ++ bs)) := hheader _
  have hsums := hsums₀.accIf (highByte (BitVec.ofNat 16 p.length))
  have hheader₀ : frameHeader c i p.length =
      [c, i, lowByte (BitVec.ofNat 16 p.length)] ++ [highByte (BitVec.ofNat 16 p.length)] := rfl
  rw [← hheader₀] at hsums
  generalize highByte (BitVec.ofNat 16 p.length) = hi at hdeclared hfirst hsums
  cases p with
  | nil =>
    have hzero : d₀.declared hi = 0 := BitVec.eq_of_toNat_eq hdeclared
    refine ⟨{ d₀.accIf v hi with len := 0, cnt := 0 }, rfl, ?_, fun bs => ?_⟩
    · rw [List.append_nil]
      exact hsums
    · exact (hfirst bs).trans (dmxScan_cons_bodyEnd (dmxStep_of_declared_zero hst₀ hzero) m bs)
  | cons b q =>
    have hle : d₀.declared hi ≤ cap := by rwa [BitVec.le_def, hdeclared]
    have hne : d₀.declared hi ≠ 0 := fun h => by rw [h] at hdeclared; cases hdeclared
    obtain ⟨d', hlen, hsums', hscan⟩ :=
      dmxScan_payload (v := v) (c := c) (i := i) (cap := cap) q (b := b)
        (d := { d₀.accIf v hi with st := .payload, len := d₀.declared hi, cnt := 0 }) rfl
        ((Nat.zero_add _).trans hdeclared.symm) hsums m
    refine ⟨d', (congrArg BitVec.toNat hlen).trans hdeclared, hsums', fun bs => (hfirst bs).trans ?_⟩
    exact (dmxScan_cons_go (dmxStep_of_declared_le hst₀ hle hne) m _).trans (hscan bs)

/-- With its right checksum bytes the awaited frame completes the receive, in both modes (R132, R134, R138). -/
theorem dmxScan_frameTaken (hst : d.st = .sync1) {p : List Byte} (hp : p.length ≤ cap.toNat) (m : Memory) :
    ∃ (d' : Dmx) (n : Half), n.toNat = p.length ∧
      dmxScan v c i cap d m (frameTaken v c i p) =
        { dmx := d', resp := m.writeRange 0 p, result := some (.ok n), left := [] } := by
  obtain ⟨d', hlen, hsums, hscan⟩ := dmxScan_frameBody (v := v) (c := c) (i := i) hst hp m
  cases v with
  | false =>
    refine ⟨d', d'.len, hlen, ?_⟩
    rw [frameTaken_default, ← List.append_nil (frameBody c i p), hscan, dmxAfterBody_default]
  | true =>
    have hck : (d'.ckA, d'.ckB) = checksumOf c i p := hsums rfl
    refine ⟨{ d' with st := .ckB }, d'.len, hlen, ?_⟩
    rw [frameTaken_verify, frameBytes_eq, ← hck, frameWith_eq_frameBody, hscan, dmxAfterBody_verify,
      dmxScan_cons_go (dmxStep_ckA (d := { d' with st := .ckA }) rfl)]
    exact dmxScan_cons_of_some (dmxStep_ckB rfl) rfl _ _

/-- With a wrong checksum byte the awaited frame does not complete the receive in verify mode; the demultiplexer is in
SYNC1 from the wrong byte on, where the byte behind a wrong first one is looked at again (R138). -/
theorem dmxScan_badFrame (hst : d.st = .sync1) {p : List Byte} (hp : p.length ≤ cap.toNat) {a b : Byte}
    (hbad : (a, b) ≠ checksumOf c i p) (m : Memory) :
    ∃ (d' : Dmx) (m' : Memory),
      d'.st = (if a ≠ (checksumOf c i p).1 ∧ b = sync1 then .sync2 else .sync1) ∧
      dmxScan true c i cap d m (frameWith c i p a b) = { dmx := d', resp := m', result := none, left := [] } := by
  obtain ⟨d', hlen, hsums, hscan⟩ := dmxScan_frameBody (v := true) (c := c) (i := i) hst hp m
  have hck : (d'.ckA, d'.ckB) = checksumOf c i p := hsums rfl
  rw [frameWith_eq_frameBody, hscan, dmxAfterBody_verify]
  rw [← hck] at hbad ⊢
  by_cases ha : a = d'.ckA
  · subst ha
    have hb : b ≠ d'.ckB := fun hb => hbad (by rw [hb])
    refine ⟨{ d' with st := .sync1 }, m.writeRange 0 p, (if_neg fun ⟨hne, _⟩ => hne rfl).symm, ?_⟩
    rw [dmxScan_cons_go (dmxStep_ckA (d := { d' with st := .ckA }) rfl),
      dmxScan_cons_go (dmxStep_of_ckB_ne (d := { d' with st := .ckB }) rfl hb)]
    rfl
  · -- The wrong first byte is dropped, so the second one comes in SYNC1.
    refine ⟨{ d' with st := if b = sync1 then .sync2 else .sync1 }, m.writeRange 0 p, by simp [ha], ?_⟩
    rw [dmxScan_cons_go (dmxStep_of_ckA_ne (d := { d' with st := .ckA }) rfl ha),
      dmxScan_cons_go (dmxStep_of_sync1 (d := { d' with st := .sync1 }) rfl b)]
    rfl

end

/-! ## A run of engine moves -/

/-- What a run over an open receive leaves: the demultiplexer's scan, and the results that go with it (R131, R136). -/
structure ScanEnds (s t : State) (o : RecvScan) (rest : List Byte) : Prop where
  dmx : t.dmx = o.dmx
  resp : t.resp = o.resp
  rx : t.rx = o.left ++ rest
  status : t.status = statusAfterRecv s.status o.result
  resultLen : t.resultLen = lengthAfterRecv s.resultLen o.result
  waiting : t.waiting = o.result.isNone

/-- An engine move of a running RECV_PAYLOAD is one engine step of it (R136). -/
theorem step_recvPayload {s : State} {moves : List Move} (hrun : Running s 0x05)
    (hsched : s.schedule = .engine :: moves) : step s = exec .recvPayload { s with schedule := moves } := by
  obtain ⟨hbusy, hop⟩ := hrun
  have hinstr : decodeOp s.curOp = .recvPayload := by rw [hop]; rfl
  calc step s = exec (decodeOp s.curOp) { s with schedule := moves } :=
        (step_of_schedule hsched).trans (engineMove_busy hbusy)
    _ = exec .recvPayload { s with schedule := moves } := by rw [hinstr]

/-- An open receive whose capacity fits RESP, given an engine move for each of some available bytes, follows the
demultiplexer over them. -/
theorem run_recvPayload {s : State} {bs rest : List Byte} (hrun : Running s 0x05) (hopen : WaitOpen s)
    (hcap : s.argCap.toNat ≤ s.par.respSize) (hinside : s.dmx.PayloadInside s.argCap.toNat) (hrx : s.rx = bs ++ rest)
    (hsched : s.schedule = List.replicate bs.length .engine) :
    ∃ t, Host.Core.run core bs.length s = .next t ∧
      ScanEnds s t (dmxScan s.par.verifyRxChecksum s.argClass s.argId s.argCap s.dmx s.resp bs) rest := by
  induction bs generalizing s with
  | nil => exact ⟨s, rfl, rfl, rfl, hrx, rfl, rfl, hopen.1⟩
  | cons b bs ih =>
    have hstore (k : Nat) (hk : (dmxStep s.par.verifyRxChecksum s.argClass s.argId s.argCap s.dmx b).store = some k) :
        k < s.par.respSize := by
      obtain ⟨hst, rfl⟩ := dmxStep_store hk
      obtain ⟨hcnt, hlen⟩ := hinside hst
      omega
    have hexec := execRecvPayload_of_waiting (s := { s with schedule := List.replicate bs.length .engine }) hopen.1
    have hbyte :=
      recvStepFinish_byte (s := { s with schedule := List.replicate bs.length .engine }) hopen hrx rfl hstore
    have hstep := (step_recvPayload hrun hsched).trans (hexec.trans hbyte)
    rw [List.length_cons, run_succ_of_next bs.length hstep]
    have hinside' :=
      dmxStep_payloadInside (v := s.par.verifyRxChecksum) (c := s.argClass) (i := s.argId) (b := b) hinside
    generalize hout : dmxStep s.par.verifyRxChecksum s.argClass s.argId s.argCap s.dmx b = o at hinside'
    obtain ⟨next, store, _ | r⟩ := o
    · rw [dmxScan_cons_of_none hout rfl]
      obtain ⟨t, hmoves, hends⟩ := ih
        (s := State.afterRecvByte { s with schedule := List.replicate bs.length .engine }
          { next := next, store := store, result := none } b (bs ++ rest))
        hrun ⟨rfl, hopen.2⟩ hcap (hinside' rfl) rfl rfl
      exact ⟨t, hmoves, { hends with }⟩
    · rw [dmxScan_cons_of_some hout rfl]
      exact ⟨_, run_engine_idle rfl rfl, rfl, rfl, rfl, rfl, rfl, rfl⟩

/-- A RECV_PAYLOAD not yet begun takes one engine move more, its start, which clears the demultiplexer (R131, log 5). -/
theorem run_recvPayload_begin {s : State} {bs rest : List Byte} {n : Nat} (hrun : Running s 0x05)
    (hwait : s.waiting = false) (hcap : s.argCap.toNat ≤ s.par.respSize) (hrx : s.rx = bs ++ rest)
    (hn : n = bs.length + 1) (hsched : s.schedule = List.replicate n .engine) :
    ∃ t, Host.Core.run core n s = .next t ∧
      ScanEnds s t (dmxScan s.par.verifyRxChecksum s.argClass s.argId s.argCap Dmx.reset s.resp bs) rest := by
  subst hn
  have hstep := (step_recvPayload hrun hsched).trans
    (execRecvPayload_begin (s := { s with schedule := List.replicate bs.length .engine }) hwait hcap)
  rw [run_succ_of_next bs.length hstep]
  obtain ⟨t, hmoves, hends⟩ :=
    run_recvPayload (s := State.recvBegin { s with schedule := List.replicate bs.length .engine })
      hrun ⟨rfl, Nat.le_add_right _ _⟩ hcap (.of_st_ne (d := Dmx.reset) (by decide)) hrx rfl
  exact ⟨t, hmoves, { hends with }⟩

/-- Settles O30: the run is the demultiplexer over the unrelated frame, which leaves it in SYNC1, and then over what it
takes of the target. -/
theorem demultiplexerReconstructs : Obligations.DemultiplexerReconstructs := by
  intro s c' i' a b p' p rest hrun hwait hcap hwf hother hp' hp hquiet hrx hsched
  rw [frameBytes_eq_frameTaken_append s.par.verifyRxChecksum s.argClass s.argId p, List.append_assoc,
    List.append_assoc, ← List.append_assoc] at hrx
  obtain ⟨t, hmoves, hends⟩ := run_recvPayload_begin hrun hwait hcap hrx
    (by rw [List.length_append, frameWith_length, frameTaken_length]; omega) hsched
  obtain ⟨d₁, hst₁, hfirst⟩ :=
    dmxScan_otherFrame (v := s.par.verifyRxChecksum) (cap := s.argCap) (d := Dmx.reset) rfl hother hquiet s.resp
      (frameTaken s.par.verifyRxChecksum s.argClass s.argId p)
  obtain ⟨d₂, n, hn, hsecond⟩ :=
    dmxScan_frameTaken (v := s.par.verifyRxChecksum) (c := s.argClass) (i := s.argId) hst₁ hp s.resp
  rw [hfirst, hsecond] at hends
  refine ⟨t, hmoves, hends.status, (congrArg BitVec.toNat hends.resultLen).trans hn, fun j => ?_, hends.rx⟩
  rw [hends.resp, Memory.read_writeRange p hwf]
  by_cases hj : j < p.length <;> simp [hj]

/-- Settles O31: the run is the demultiplexer over the frame, which comes to no result. -/
theorem verifyModeDiscardsABadFrame : Obligations.VerifyModeDiscardsABadFrame := by
  intro s p rest a b hrun hwait hverify hcap hp hbad hrx hsched
  obtain ⟨t, hmoves, hends⟩ := run_recvPayload_begin hrun hwait hcap hrx (by simp) hsched
  obtain ⟨d', m', hst, hscan⟩ := dmxScan_badFrame (d := Dmx.reset) rfl hp hbad s.resp
  rw [hverify, hscan] at hends
  exact ⟨t, hmoves, hends.status, hends.waiting, hends.rx, (congrArg Dmx.st hends.dmx).trans hst⟩

end Sys2Proof.Machine
end

section
/-! The payload decoders and the altitude policy (spec/43_fix_decoder.md): the field readers as numbers (R161), the four
decodes (R166 to R169), and `AltNorm` as one clamp of the floored quotient (R165, R175). -/

namespace Sys2Proof.Machine

/-! ## The field readers -/

theorem rdU16_toNat (s : State) (o : Nat) :
    (s.rdU16 o).toNat = (Memory.read s.resp o).toNat + 256 * (Memory.read s.resp (o + 1)).toNat :=
  le16_toNat _ _

theorem rdS32_toNat (s : State) (o : Nat) :
    (s.rdS32 o).toNat = (Memory.read s.resp o).toNat + 256 * (Memory.read s.resp (o + 1)).toNat +
      65536 * (Memory.read s.resp (o + 2)).toNat + 16777216 * (Memory.read s.resp (o + 3)).toNat :=
  le32_toNat _ _ _ _

/-! ## The decodes -/

/-- A decode that completes writes the Fix registers and STATUS (R166). -/
theorem exec_decodePvt (s : State) :
    exec .decodePvt s = .next { s with
      fixReg := s.decodePvt.fixReg, waiting := false, status := finished true .none s.status.acked } := rfl

/-- Settles O34: the wide fields of the record that `decodePvt` builds are read by `rdU16` and `rdS32`. -/
theorem decodePvtReadsTheFields : Obligations.DecodePvtReadsTheFields := by
  intro s
  refine ⟨s.decodePvt.fixReg, exec_decodePvt s, ?year, rfl, rfl, rfl, rfl, rfl, rfl, rfl, ?lat, ?lon,
    s.rdS32 s.par.offPvt.alt, ?alt, rfl⟩
  case year => exact rdU16_toNat s _
  case lat => exact rdS32_toNat s _
  case lon => exact rdS32_toNat s _
  case alt => exact rdS32_toNat s _

/-- Settles O35: each of the three decodes writes its own fields of the record. -/
theorem decodeGen1ReadsTheFields : Obligations.DecodeGen1ReadsTheFields := by
  intro s
  refine ⟨⟨s.rdS32 s.par.offPos.lat, s.rdS32 s.par.offPos.lon, s.rdS32 s.par.offPos.alt, rfl, ?lat, ?lon, ?alt⟩, rfl,
    s.rdU16 s.par.offTime.year, rfl, ?year⟩
  case lat => exact rdS32_toNat s _
  case lon => exact rdS32_toNat s _
  case alt => exact rdS32_toNat s _
  case year => exact rdU16_toNat s _

/-! ## The altitude policy -/

/-- Rounding toward zero and flooring differ only below zero, where the clamp gives 1 for both (R165). -/
theorem clamp_tdiv_eq_clamp_ediv (r : Int) :
    max 1 (min 50000 (Int.tdiv r 1000)) = max 1 (min 50000 (r / 1000)) := by
  obtain hneg | hnonneg := lt_or_ge r 0
  · have htdiv : 0 ≤ -Int.tdiv r 1000 := by
      rw [← Int.neg_tdiv]
      exact Int.tdiv_nonneg (by omega) (by decide)
    omega
  · rw [Int.tdiv_eq_ediv_of_nonneg hnonneg]

/-- `AltNorm` is the quotient rounded toward zero, clamped to [1, 50000] (R165). -/
theorem altNorm_toNat_eq_clamp_tdiv (r : Word) :
    ((altNorm r).toNat : Int) = max 1 (min 50000 (Int.tdiv r.toInt 1000)) := by
  simp only [altNorm]
  split
  · have hone : ((1 : Half).toNat : Int) = 1 := rfl
    omega
  · split
    · have hmax : ((50000 : Half).toNat : Int) = 50000 := rfl
      omega
    · rw [BitVec.toNat_ofInt]
      omega

/-- `AltNorm` is the floored quotient, clamped to [1, 50000] (R165, R175). -/
theorem altNorm_toNat (r : Word) : ((altNorm r).toNat : Int) = max 1 (min 50000 (r.toInt / 1000)) :=
  (altNorm_toNat_eq_clamp_tdiv r).trans (clamp_tdiv_eq_clamp_ediv r.toInt)

/-- Settles O36: the policy and the laws, read off the two clamps. -/
theorem altNormPolicyAndLaws : Obligations.AltNormPolicyAndLaws := by
  refine ⟨fun r => ?_, fun r r' hle => ?_, fun r => ?_, fun r => ?_, fun r => ?_, fun r hlo hhi => ?_⟩
  · have htdiv := altNorm_toNat_eq_clamp_tdiv r
    have hfloor := altNorm_toNat r
    refine ⟨fun hle => BitVec.eq_of_toNat_eq ?_, fun hgt => BitVec.eq_of_toNat_eq ?_, fun hpos hle => ?_, ?_⟩
    · have hone : (1 : Half).toNat = 1 := rfl
      omega
    · have hmax : (50000 : Half).toNat = 50000 := rfl
      omega
    · omega
    · split
      · omega
      · split <;> omega
  · have hr := altNorm_toNat r
    have hr' := altNorm_toNat r'
    omega
  all_goals
    have hr := altNorm_toNat r
    omega

end Sys2Proof.Machine
end

section
/-! The end of a poll of ACQUIRE_FIX (spec/43_fix_decoder.md R170, R171, R174): the steps that end a receive, whichever
message it awaits (spec/42_payload_demux.md R132 to R138), and what the acquisition makes of each. -/

namespace Sys2Proof.Machine

/-! ## The steps that end a receive -/

section
variable {s : State} {b : Byte} {rest : List Byte} {c i : Byte} {cap : Half}

theorem recvWait_payload_last (hopen : WaitOpen s) (hdefault : s.par.verifyRxChecksum = false) (hrx : s.rx = b :: rest)
    (hst : s.dmx.st = .payload) (hend : s.dmx.cnt + 1 = s.dmx.len) (hinside : s.dmx.cnt.toNat < s.par.respSize) :
    s.recvWait c i cap = .ok ({ s with
      rx := rest, asleep := none, waiting := false, dmx := { s.dmx with cnt := s.dmx.len }
      resp := Memory.write s.resp s.dmx.cnt.toNat b }, some (.ok s.dmx.len)) := by
  obtain ⟨hwait, hdeadline⟩ := hopen
  have hstep : dmxStep s.par.verifyRxChecksum c i cap s.dmx b =
      dmxBodyEnd false { s.dmx with cnt := s.dmx.len } (some s.dmx.cnt.toNat) := by
    rw [hdefault]
    exact dmxStep_payload_last hst hend b
  rw [recvWait_copy hwait hdeadline hrx (congrArg DmxOut.store hstep) hinside, hstep]
  rfl

theorem recvWait_emptyFrame (hopen : WaitOpen s) (hdefault : s.par.verifyRxChecksum = false) (hrx : s.rx = 0 :: rest)
    (hst : s.dmx.st = .lenHi) (hlen : s.dmx.len = 0) :
    s.recvWait c i cap = .ok ({ s with
      rx := rest, asleep := none, waiting := false, dmx := { s.dmx with cnt := 0 } }, some (.ok 0)) := by
  obtain ⟨hwait, hdeadline⟩ := hopen
  have hzero : s.dmx.declared 0 = 0 := by rw [Dmx.declared, hlen]; rfl
  have hstep : dmxStep s.par.verifyRxChecksum c i cap s.dmx 0 =
      dmxBodyEnd false { s.dmx with len := 0, cnt := 0 } none := by
    rw [hdefault]
    exact dmxStep_of_declared_zero hst hzero
  rw [recvWait_byte hwait hdeadline hrx (congrArg DmxOut.store hstep), hstep, ← hlen]
  rfl

theorem recvWait_ckB (hopen : WaitOpen s) (hrx : s.rx = s.dmx.ckB :: rest) (hst : s.dmx.st = .ckB) :
    s.recvWait c i cap = .ok ({ s with rx := rest, asleep := none, waiting := false }, some (.ok s.dmx.len)) := by
  obtain ⟨hwait, hdeadline⟩ := hopen
  have hstep := dmxStep_ckB (v := s.par.verifyRxChecksum) (c := c) (i := i) (cap := cap) hst
  rw [recvWait_byte hwait hdeadline hrx (congrArg DmxOut.store hstep), hstep]
  rfl

theorem recvWait_declared_gt (hopen : WaitOpen s) (hrx : s.rx = b :: rest) (hst : s.dmx.st = .lenHi)
    (hcap : cap < s.dmx.declared b) :
    s.recvWait c i cap = .ok ({ s with
      rx := rest, asleep := none, waiting := false
      dmx := { s.dmx.accIf s.par.verifyRxChecksum b with len := s.dmx.declared b } }, some .capExceeded) := by
  obtain ⟨hwait, hdeadline⟩ := hopen
  have hstep := dmxStep_of_declared_gt (v := s.par.verifyRxChecksum) (c := c) (i := i) hst hcap
  rw [recvWait_byte hwait hdeadline hrx (congrArg DmxOut.store hstep), hstep]
  rfl

end

/-- A receive keeps the record of the acquisition it belongs to. -/
theorem recvWait_acquisition {s u : State} {c i : Byte} {cap : Half} {r : Option RecvResult}
    (h : s.recvWait c i cap = .ok (u, r)) :
    u.variant = s.variant ∧ u.phase = s.phase ∧ u.accOk = s.accOk ∧ u.accCap = s.accCap ∧
      u.acqStatus = s.acqStatus ∧ u.status = s.status := by
  obtain ⟨_, rfl, _⟩ | ⟨_, _, rfl, _⟩ | ⟨_, _, _, rfl, _⟩ | ⟨_, _, b, rest, _, _, _, rfl⟩ := recvWait_cases h <;>
    exact ⟨rfl, rfl, rfl, rfl, rfl, rfl⟩

/-- The declared length is past the capacity of an acquisition's polls when, as a number, it is past RESP_SIZE. -/
theorem acquireCap_lt_declared {s : State} {b : Byte} (hlen : s.dmx.len.toNat < 256)
    (hsize : s.par.respSize < s.dmx.len.toNat + 256 * b.toNat) : s.acquireCap < s.dmx.declared b := by
  rwa [BitVec.lt_def, acquireCap_toNat, Dmx.declared_toNat hlen]

/-! ## What the acquisition makes of it -/

/-- In the receive of a poll a result is the end of the poll, in the same step (log 28). -/
theorem execAcquireFix_of_recvWait {s u : State} {r : RecvResult} (hphase : s.phase % 3 = 2)
    (hrecv : ∀ c i, s.recvWait c i s.acquireCap = .ok (u, some r)) : exec .acquireFix s = .next (acquireEnd u r) := by
  have hne : s.phase % 3 ≠ 0 := by omega
  simp only [exec, execAcquireFix, if_neg hne, hrecv]

theorem execAcquireFix_gen2 {s u : State} {r : RecvResult} (hvariant : s.variant = .gen2) (hphase : s.phase = 2)
    (hrecv : ∀ c i, s.recvWait c i s.acquireCap = .ok (u, some r)) :
    exec .acquireFix s = .next (acquireEndGen2 u r) := by
  obtain ⟨hkeep, _⟩ := recvWait_acquisition (hrecv 0 0)
  rw [execAcquireFix_of_recvWait (by rw [hphase]) hrecv, acquireEnd, hkeep, hvariant]

/-- Settles O38: each of the four steps ends the receive, and a success alone decodes. -/
theorem acquireFixGen2 : Obligations.AcquireFixGen2 := by
  refine fun s hvariant hphase hwait => ⟨fun b rest hdeadline hdefault hrx hst hend hinside => ?_,
    fun rest hdeadline _ hrx hst => ?_, fun hlate => ?_, fun b rest hdeadline hrx hst hlen hsize => ?_⟩
  · exact ⟨_, exec_decodePvt _, execAcquireFix_gen2 hvariant hphase fun _ _ =>
      recvWait_payload_last ⟨hwait, hdeadline⟩ hdefault hrx hst hend hinside⟩
  · exact ⟨_, exec_decodePvt _, execAcquireFix_gen2 hvariant hphase fun _ _ =>
      recvWait_ckB ⟨hwait, hdeadline⟩ hrx hst⟩
  · exact execAcquireFix_gen2 hvariant hphase fun _ _ => recvWait_late hwait hlate
  · exact ⟨_, execAcquireFix_gen2 hvariant hphase fun _ _ =>
      recvWait_declared_gt ⟨hwait, hdeadline⟩ hrx hst (acquireCap_lt_declared hlen hsize)⟩

/-! ## The three polls of Gen1 -/

/-- However a poll ends, its receive answers the outcome that is recorded. -/
theorem AcquirePollEnds.recvWait {s u : State} {ok capped : Bool} {n : Half} (h : AcquirePollEnds s u ok capped n)
    (hwait : s.waiting = true) :
    ∃ r : RecvResult, ok = r.succeeded ∧ capped = decide (r = .capExceeded) ∧ n = r.length ∧
      ∀ c i, s.recvWait c i s.acquireCap = .ok (u, some r) := by
  obtain ⟨b, rest, hdeadline, hrx, hbyte⟩ | ⟨hlate, rfl, rfl, rfl, rfl⟩ := h
  · have hopen : WaitOpen s := ⟨hwait, hdeadline⟩
    obtain ⟨hdefault, hst, hend, hinside, rfl, rfl, rfl, rfl⟩ | ⟨hdefault, hst, hlen, rfl, rfl, rfl, rfl, rfl⟩ |
      ⟨_, hst, rfl, rfl, rfl, rfl, rfl⟩ | ⟨hst, hlen, hsize, rfl, rfl, rfl, rfl⟩ := hbyte
    · exact ⟨.ok s.dmx.len, rfl, rfl, rfl, fun _ _ => recvWait_payload_last hopen hdefault hrx hst hend hinside⟩
    · exact ⟨.ok 0, rfl, rfl, rfl, fun _ _ => recvWait_emptyFrame hopen hdefault hrx hst hlen⟩
    · exact ⟨.ok s.dmx.len, rfl, rfl, rfl, fun _ _ => recvWait_ckB hopen hrx hst⟩
    · refine ⟨.capExceeded, rfl, rfl, rfl, fun _ _ => ?_⟩
      rw [← Dmx.declared_toNat hlen, BitVec.ofNat_toNat, BitVec.setWidth_eq]
      exact recvWait_declared_gt hopen hrx hst (acquireCap_lt_declared hlen hsize)
  · exact ⟨.timeout, rfl, rfl, rfl, fun _ _ => recvWait_late hwait hlate⟩

/-- What the end of Gen1 poll j records, whether or not the acquisition is then over (R171, R174). -/
def State.afterPoll (s : State) (j : Nat) (r : RecvResult) : State :=
  { s with
    resultLen := r.length, fixReg := (s.decodeGen1 j).fixReg, accOk := s.accOk && r.succeeded
    accCap := s.accCap || decide (r = .capExceeded), acqStatus := s.acqStatus.setPoll j r.succeeded }

/-- A decode reads RESP, so what is recorded before it does not change what it writes (R162). -/
theorem decodeGen1_recorded (s : State) (n : Half) (cap : Bool) (j : Nat) :
    State.decodeGen1 { s with resultLen := n, accCap := cap } j =
      { s with resultLen := n, accCap := cap, fixReg := (s.decodeGen1 j).fixReg } := by
  unfold State.decodeGen1
  split <;> rfl

theorem acquireEndGen1_of_lt (s : State) {j : Nat} (hj : j < 2) (r : RecvResult) :
    acquireEndGen1 s j r = { s.afterPoll j r with phase := 3 * (j + 1) } := by
  simp only [acquireEndGen1, decodeGen1_recorded, if_neg (Nat.not_le.2 hj), State.afterPoll]

/-- With no receive open, the completion writes STATUS alone (00_scope.md R15). -/
theorem State.finish_of_not_waiting {s : State} (h : s.waiting = false) (ok : Bool) (err : ErrCode) :
    s.finish ok err = { s with status := finished ok err s.status.acked } := by
  simp only [State.finish, finished, h]

theorem acquireEndGen1_two {s : State} (hwait : s.waiting = false) (r : RecvResult) :
    acquireEndGen1 s 2 r = { s.afterPoll 2 r with
      acqStatus := { s.acqStatus with success := s.accOk && r.succeeded, p2Ok := r.succeeded }
      status := finished (s.accOk && r.succeeded)
        (acquireErr (s.accOk && r.succeeded) (s.accCap || decide (r = .capExceeded))) s.status.acked } := by
  simp only [acquireEndGen1, decodeGen1_recorded, le_refl, if_true]
  refine State.finish_of_not_waiting ?_ _ _
  exact hwait

theorem execAcquireFix_gen1 {s u : State} {r : RecvResult} {j : Nat} (hvariant : s.variant = .gen1)
    (hphase : s.phase = 3 * j + 2) (hrecv : ∀ c i, s.recvWait c i s.acquireCap = .ok (u, some r)) :
    exec .acquireFix s = .next (acquireEndGen1 u j r) := by
  obtain ⟨hkeep, hkeepPhase, _⟩ := recvWait_acquisition (hrecv 0 0)
  have hpoll : (3 * j + 2) / 3 = j := by omega
  rw [execAcquireFix_of_recvWait (by omega) hrecv, acquireEnd, hkeep, hvariant, hkeepPhase, hphase]
  simp only [hpoll]

/-- Settles O39: the poll's receive answers its outcome, and the first two polls go on where the third finishes. -/
theorem acquireFixGen1 : Obligations.AcquireFixGen1 := by
  intro s u ok capped n hvariant hwait hends
  obtain ⟨r, rfl, rfl, rfl, hrecv⟩ := hends.recvWait hwait
  obtain ⟨_, _, haccOk, haccCap, hacqStatus, hstatus⟩ := recvWait_acquisition (hrecv 0 0)
  rw [← haccOk, ← haccCap, ← hacqStatus, ← hstatus]
  refine ⟨fun hphase => ⟨_, rfl, ?_⟩, fun hphase => ⟨_, rfl, ?_⟩, fun hphase => ⟨_, rfl, ?_⟩⟩
  · rw [execAcquireFix_gen1 (j := 0) hvariant hphase hrecv, acquireEndGen1_of_lt u (by decide)]
    rfl
  · rw [execAcquireFix_gen1 (j := 1) hvariant hphase hrecv, acquireEndGen1_of_lt u (by decide)]
    rfl
  · have hover := recvWait_waiting_of_result (hrecv 0 0)
    rw [execAcquireFix_gen1 (j := 2) hvariant hphase hrecv, acquireEndGen1_two hover]
    rfl

end Sys2Proof.Machine
end

section
/-! The steps of CFG_SEQ (spec/44_config_sequence.md R192, R193): which template is next, one equation per outcome of
the encode, the write and the wait of a template by PHASE, and the operation from them. -/

namespace Sys2Proof.Machine

/-! ## The choice of the next template -/

/-- CFG_SEQ passes over exactly the Gen2-only templates under GEN1 (R192). -/
theorem applicable_iff (v : Variant) (t : Template) :
    applicable v t = true ↔ ¬ (t.gen2Only = true ∧ v = .gen1) := by
  cases h : t.gen2Only <;> simp [applicable, h]

/-- The template chosen is at or after k, applicable, and the first such. -/
theorem nextTemplate_some {p : Params} {v : Variant} {k j : Nat} (h : nextTemplate p v k = some j) :
    k ≤ j ∧ (∃ t, p.templates[j]? = some t ∧ applicable v t = true) ∧
      ∀ m u, k ≤ m → m < j → p.templates[m]? = some u → applicable v u ≠ true := by
  unfold nextTemplate at h
  obtain ⟨hj, _, hbefore⟩ := List.find?_range_eq_some.1 h
  rw [Bool.and_eq_true, decide_eq_true_eq] at hj
  obtain ⟨hle, happ⟩ := hj
  refine ⟨hle, ?_, fun m u hm hlt hu happlicable => ?_⟩
  · split at happ
    · rename_i t ht
      exact ⟨t, ht, happ⟩
    · cases happ
  · have hskip := hbefore m hlt
    simp [hm, hu, happlicable] at hskip

/-- With no template chosen there is no applicable one at or after k. -/
theorem nextTemplate_none {p : Params} {v : Variant} {k : Nat} (h : nextTemplate p v k = none) {m : Nat} {u : Template}
    (hm : k ≤ m) (hu : p.templates[m]? = some u) : applicable v u ≠ true := by
  intro happlicable
  have hlt : m < p.templates.length := (List.getElem?_eq_some_iff.1 hu).1
  have hskip := List.find?_eq_none.1 h m (List.mem_range.2 hlt)
  simp [hm, hu, happlicable] at hskip

/-- Settles O40: the first applicable template at or after k, and none is left out. -/
theorem cfgSeqSkipsOnlyGen2Templates : Obligations.CfgSeqSkipsOnlyGen2Templates := by
  refine fun p v k => ⟨fun j hj => ?_, fun hnone m u hm hu => ?_⟩
  · obtain ⟨hle, ⟨t, ht, happlicable⟩, hskipped⟩ := nextTemplate_some hj
    refine ⟨hle, t, ht, (applicable_iff v t).1 happlicable, fun m hm hlt => ?_⟩
    have hu := List.getElem?_eq_getElem (hlt.trans (nextTemplate_lt hj))
    have hnot := hskipped m _ hm hlt hu
    rw [Ne, applicable_iff, not_not] at hnot
    exact ⟨_, hu, hnot⟩
  · have hnot := nextTemplate_none hnone hm hu
    rwa [Ne, applicable_iff, not_not] at hnot

/-! ## The steps by PHASE -/

theorem execCfgSeq_of_phase_zero {s : State} (h : s.phase = 0) : execCfgSeq s = cfgStart s := if_pos h

theorem execCfgSeq_of_encode {s : State} (hstarted : s.phase ≠ 0) (h : s.phase % 3 = 0) :
    execCfgSeq s = cfgEncode s s.kIdx := by
  simp only [execCfgSeq, if_neg hstarted, h]

theorem execCfgSeq_of_transmit {s : State} (h : s.phase % 3 = 1) (hle : s.frameLen.toNat ≤ s.par.txpSize + 8) :
    execCfgSeq s =
      .next { s.txWrite (Memory.readRange s.frame 0 s.frameLen.toNat) with phase := s.phase + 1 } := by
  have hstarted : s.phase ≠ 0 := by omega
  simp only [execCfgSeq, if_neg hstarted, h, txFrame_of_le hle]

theorem execCfgSeq_of_wait {s : State} (h : s.phase % 3 = 2) : execCfgSeq s = cfgWait s := by
  have hstarted : s.phase ≠ 0 := by omega
  simp only [execCfgSeq, if_neg hstarted, h]

/-- The steps of CFG_SEQ past the first, by PHASE (R192). -/
theorem execCfgSeq_started {s t : State} (hstarted : s.phase ≠ 0) (h : execCfgSeq s = .next t) :
    (s.phase % 3 = 0 ∧ cfgEncode s s.kIdx = .next t) ∨
    (s.phase % 3 = 1 ∧
      t = { s.txWrite (Memory.readRange s.frame 0 s.frameLen.toNat) with phase := s.phase + 1 }) ∨
    (s.phase % 3 = 2 ∧ cfgWait s = .next t) := by
  simp only [execCfgSeq, if_neg hstarted] at h
  split at h
  · exact .inl ⟨‹_›, h⟩
  · rename_i hphase
    split at h <;> cases h
    rename_i u hu
    obtain rfl := txFrame_eq hu
    exact .inr (.inl ⟨hphase, rfl⟩)
  · rename_i hne0 hne1
    have h0 : s.phase % 3 ≠ 0 := hne0
    have h1 : s.phase % 3 ≠ 1 := hne1
    exact .inr (.inr ⟨by omega, h⟩)

theorem cfgEncode_of_template {s : State} {k : Nat} {t : Template} (h : s.par.templates[k]? = some t) :
    cfgEncode s k = .next { s.encodeToFrame t.cls t.ident t.payload with kIdx := k, phase := 3 * k + 1 } := by
  simp only [cfgEncode, h]

theorem cfgStart_of_some {s : State} {k : Nat} (h : nextTemplate s.par s.variant 0 = some k) :
    cfgStart s = cfgEncode { s with accOk := true, attMask := 0, okMask := 0 } k := by
  simp only [cfgStart, h]

theorem cfgStart_of_none {s : State} (h : nextTemplate s.par s.variant 0 = none) :
    cfgStart s = .next (cfgFinish { s with accOk := true, attMask := 0, okMask := 0 }) := by
  simp only [cfgStart, h]

/-- FRAME after an encode, byte by byte: the frame, and past it what was there (40_command_encoder.md R92). -/
theorem read_encodeToFrame {s : State} (h : s.frame.wf = true) (c i : Byte) (p : List Byte) (j : Nat) :
    Memory.read (s.encodeToFrame c i p).frame j =
      if j < p.length + 8 then (frameBytes c i p).getD j 0 else Memory.read s.frame j := by
  have hlen := frameBytes_length c i p
  refine (Memory.read_writeRange (frameBytes c i p) h 0 j).trans ?_
  by_cases hj : j < p.length + 8
  · rw [dif_pos (by omega), if_pos hj]
    exact (List.getD_eq_getElem _ _ (by omega)).symm
  · rw [dif_neg (by omega), if_neg hj]

/-- Settles O41: the two encodes, the completion with nothing to send, and the write. -/
theorem cfgSeqSendsTheTemplate : Obligations.CfgSeqSendsTheTemplate := by
  refine fun s hwf => ⟨fun k t hphase hnext ht => ?_, fun hphase hnone => ?_, fun t hstarted hphase ht => ?_,
    fun hphase hle => execCfgSeq_of_transmit hphase hle⟩
  · refine ⟨_, ?_, read_encodeToFrame hwf t.cls t.ident t.payload⟩
    exact ((execCfgSeq_of_phase_zero hphase).trans (cfgStart_of_some hnext)).trans (cfgEncode_of_template ht)
  · exact (execCfgSeq_of_phase_zero hphase).trans (cfgStart_of_none hnone)
  · refine ⟨_, ?_, read_encodeToFrame hwf t.cls t.ident t.payload⟩
    exact (execCfgSeq_of_encode hstarted hphase).trans (cfgEncode_of_template ht)

/-! ## The end of a template's ACK wait -/

/-- However the wait of a template ends, the matcher answers the outcome that is recorded. -/
theorem CfgAckEnds.ackWait {s u : State} {t : Template} {a : Bool} (h : CfgAckEnds s u t a) (hwait : s.waiting = true) :
    s.ackWait t.cls t.ident = (u, some a) := by
  obtain ⟨rest, hdeadline, hpos, hrx, rfl, rfl⟩ | ⟨hlate, rfl, rfl⟩ := h
  · rw [ackWait_byte hwait hdeadline hrx, hpos, ackStep_last]
    rfl
  · exact ackWait_late hwait hlate

/-- The part of the state that CFG_SEQ keeps its sequence and its record in (10_state.md R27, R32, R36). -/
def State.cfgView (s : State) :
    Instance × Variant × CfgStatus × Bool × Byte × Nat × Nat × Bool × BitVec 8 × BitVec 8 :=
  (s.inst, s.variant, s.cfgStatus, s.status.busy, s.curOp, s.phase, s.kIdx, s.accOk, s.attMask, s.okMask)

theorem State.cfgView_parts {s t : State} (h : t.cfgView = s.cfgView) :
    t.inst = s.inst ∧ t.variant = s.variant ∧ t.cfgStatus = s.cfgStatus ∧ t.status.busy = s.status.busy ∧
      t.curOp = s.curOp ∧ t.phase = s.phase ∧ t.kIdx = s.kIdx ∧ t.accOk = s.accOk ∧ t.attMask = s.attMask ∧
      t.okMask = s.okMask := by
  simpa only [State.cfgView, Prod.mk.injEq] using h

/-- A wait for an ACK does not reach the sequence. -/
theorem ackWait_cfgView {s u : State} {c i : Byte} {r : Option Bool} (h : s.ackWait c i = (u, r)) :
    u.cfgView = s.cfgView := by
  obtain ⟨_, rfl, _⟩ | ⟨_, _, rfl, _⟩ | ⟨_, _, _, rfl, _⟩ | ⟨_, _, b, rest, _, _, rfl⟩ := ackWait_cases h <;> rfl

/-- The wait is open until it answers. -/
theorem ackWait_waiting {s u : State} {c i : Byte} {r : Option Bool} (h : s.ackWait c i = (u, r)) :
    u.waiting = r.isNone := by
  obtain ⟨_, rfl, rfl⟩ | ⟨_, _, rfl, rfl⟩ | ⟨hwait, _, _, rfl, rfl⟩ | ⟨_, _, b, rest, _, _, rfl⟩ := ackWait_cases h
  · rfl
  · rfl
  · exact hwait
  · rfl

/-- The wait goes on or answers. -/
theorem ackWait_outcome (s : State) (c i : Byte) :
    (∃ u, s.ackWait c i = (u, none)) ∨ ∃ u a, s.ackWait c i = (u, some a) := by
  obtain ⟨u, _ | a⟩ := s.ackWait c i
  · exact .inl ⟨u, rfl⟩
  · exact .inr ⟨u, a, rfl⟩

theorem cfgWait_of_none {s u : State} {t : Template} (ht : s.par.templates[s.kIdx]? = some t)
    (h : s.ackWait t.cls t.ident = (u, none)) : cfgWait s = .next u := by
  simp only [cfgWait, ht, h]

theorem cfgWait_of_some {s u : State} {t : Template} {a : Bool} (ht : s.par.templates[s.kIdx]? = some t)
    (h : s.ackWait t.cls t.ident = (u, some a)) : cfgWait s = .next (cfgRecord u a) := by
  simp only [cfgWait, ht, h]

theorem cfgRecord_of_next {s : State} {k : Nat} (h : nextTemplate s.par s.variant (s.kIdx + 1) = some k) (a : Bool) :
    cfgRecord s a = { cfgAccumulate s a with kIdx := k, phase := 3 * k } := by
  simp only [cfgRecord, h]

theorem cfgRecord_of_last {s : State} (h : nextTemplate s.par s.variant (s.kIdx + 1) = none) (a : Bool) :
    cfgRecord s a = cfgFinish ((cfgAccumulate s a).setAcked a) := by
  simp only [cfgRecord, h]

/-- Settles O42: the wait answers its outcome, which is recorded whether or not a template follows. -/
theorem cfgSeqCompletesAndGoesOn : Obligations.CfgSeqCompletesAndGoesOn := by
  intro s u t a hwait hphase ht hends
  have hanswer := hends.ackWait hwait
  have hstep : exec .cfgSeq s = .next (cfgRecord u a) :=
    (execCfgSeq_of_wait (by omega)).trans (cfgWait_of_some ht hanswer)
  have hclosed : u.waiting = false := ackWait_waiting hanswer
  obtain ⟨hinst, hvariant, _, _, _, _, hk, hacc, hatt, hok⟩ := State.cfgView_parts (ackWait_cfgView hanswer)
  rw [hstep, State.par, ← hinst, ← hvariant, ← hk, ← hacc, ← hatt, ← hok]
  refine ⟨fun hlast => ?_, fun k hnext => ?_⟩
  · rw [cfgRecord_of_last hlast]
    refine congrArg Host.Outcome.next (State.finish_of_not_waiting ?_ _ _)
    exact hclosed
  · rw [cfgRecord_of_next hnext]
    rfl

end Sys2Proof.Machine
end

section
/-! The record of the last CFG_SEQ (spec/44_config_sequence.md R193): STEP_OK ⊆ ATTEMPTED and CFG_OK = 1 iff they are
equal is kept for the accumulators by every step of CFG_SEQ, and so for CFG_STATUS by the moves of the agents. -/

namespace Sys2Proof

/-- R6, R190: a bit of the masks of CFG_SEQ for every template. -/
theorem Instance.templates_length_le (i : Instance) : i.p.templates.length ≤ 8 := by
  have h := i.ok
  simp only [Params.admissible, Bool.and_eq_true, decide_eq_true_eq] at h
  obtain ⟨⟨_, hlength⟩, _⟩ := h
  exact hlength

/-- An index of the template table is a bit position of the masks. -/
theorem Instance.templateIndex_lt (i : Instance) {k : Nat} {t : Template} (h : i.p.templates[k]? = some t) : k < 8 :=
  lt_of_lt_of_le (List.getElem?_eq_some_iff.1 h).1 i.templates_length_le

end Sys2Proof

namespace Sys2Proof.Machine

/-! ## The masks -/

/-- The bits of a mask after the outcome of template k (R192). -/
theorem getLsbD_setMaskBit {k : Nat} (hk : k < 8) (m : BitVec 8) (b : Bool) (j : Nat) :
    (setMaskBit m k b).getLsbD j = if j = k then b else m.getLsbD j := by
  have hbit : (1#8 <<< k).getLsbD j = decide (j = k) := by
    simp [← BitVec.twoPow_eq, BitVec.getLsbD_twoPow, hk, eq_comm]
  by_cases hjk : j = k
  · subst hjk
    cases b <;> simp [setMaskBit, hk]
  · cases b with
    | true => simp [setMaskBit, hbit, hjk]
    | false => simpa [setMaskBit, hbit, hjk] using BitVec.lt_of_getLsbD

/-- STEP_OK ⊆ ATTEMPTED, bit by bit (R193). -/
theorem and_eq_left_iff_getLsbD (x y : BitVec 8) :
    x &&& y = x ↔ ∀ j, x.getLsbD j = true → y.getLsbD j = true := by
  constructor
  · intro h j hx
    rw [← h, BitVec.getLsbD_and, Bool.and_eq_true] at hx
    obtain ⟨_, hy⟩ := hx
    exact hy
  · intro h
    refine BitVec.eq_of_getLsbD_eq fun j _ => ?_
    rw [BitVec.getLsbD_and]
    cases hx : x.getLsbD j with
    | false => rfl
    | true => simp [h j hx]

/-- With no template attempted yet the accumulators are a record (R192: `ACC_OK <- 1; att, okm <- 0`). -/
theorem cfgRecord_init : CfgRecord true 0 0 := ⟨rfl, by simp⟩

/-- The outcome of a template not attempted before keeps the accumulators a record (R192, R193). -/
theorem CfgRecord.accumulate {ok : Bool} {att okm : BitVec 8} {k : Nat} (h : CfgRecord ok att okm) (hk : k < 8)
    (hfresh : att.getLsbD k = false) (a : Bool) : CfgRecord (ok && a) (setMaskBit att k true) (setMaskBit okm k a) := by
  obtain ⟨hsub, hok⟩ := h
  rw [and_eq_left_iff_getLsbD] at hsub
  have hokm : okm.getLsbD k = false := by
    by_contra hset
    exact absurd (hsub k (by simpa using hset)) (by simp [hfresh])
  constructor
  · rw [and_eq_left_iff_getLsbD]
    intro j
    simp only [getLsbD_setMaskBit hk]
    split
    · exact fun _ => rfl
    · exact hsub j
  · have hbits : setMaskBit okm k a = setMaskBit att k true ↔ a = true ∧ okm = att := by
      constructor
      · intro heq
        have hbit (j : Nat) := congrArg (fun m => BitVec.getLsbD m j) heq
        simp only [getLsbD_setMaskBit hk] at hbit
        refine ⟨by simpa using hbit k, BitVec.eq_of_getLsbD_eq fun j _ => ?_⟩
        by_cases hj : j = k
        · rw [hj, hokm, hfresh]
        · simpa [hj] using hbit j
      · rintro ⟨rfl, rfl⟩
        rfl
    rw [hbits, Bool.and_eq_true, hok, and_comm]

/-! ## The invariant and the steps of CFG_SEQ -/

/-- The accumulators are a record of the templates before K (R193). -/
def State.Accumulated (s : State) : Prop :=
  CfgRecord s.accOk s.attMask s.okMask ∧ ∀ j, s.kIdx ≤ j → s.attMask.getLsbD j = false

/-- Outside CFG_SEQ, and before its first step, the invariant is about CFG_STATUS alone. -/
theorem CfgStatusLegal.of_not_started {s t : State} (h : CfgStatusLegal s) (hrecord : t.cfgStatus = s.cfgStatus)
    (hnot : ¬ (t.status.busy = true ∧ t.curOp = 0x0C ∧ t.phase ≠ 0)) : CfgStatusLegal t where
  recorded := by rw [hrecord]; exact h.recorded
  running := fun hb hop hstarted => absurd ⟨hb, hop, hstarted⟩ hnot

/-- A step within CFG_SEQ leaves CFG_STATUS and keeps the accumulators a record. -/
theorem CfgStatusLegal.of_accumulated {s t : State} (h : CfgStatusLegal s) (hrecord : t.cfgStatus = s.cfgStatus)
    (hacc : t.Accumulated) : CfgStatusLegal t where
  recorded := by rw [hrecord]; exact h.recorded
  running := fun _ _ _ => hacc

theorem CfgStatusLegal.of_cfgView_eq {s t : State} (h : CfgStatusLegal s) (view : t.cfgView = s.cfgView) :
    CfgStatusLegal t := by
  obtain ⟨_, _, hrecord, hb, hop, hphase, hk, hacc, hatt, hok⟩ := State.cfgView_parts view
  obtain ⟨recorded, running⟩ := h
  exact ⟨by rwa [hrecord], by rwa [hb, hop, hphase, hk, hacc, hatt, hok]⟩

/-- The completion writes the accumulators into CFG_STATUS (R193). -/
theorem cfgFinish_cfgStatusLegal {s : State} (h : CfgRecord s.accOk s.attMask s.okMask) :
    CfgStatusLegal (cfgFinish s) where
  recorded := .inr h
  running := fun hb => by cases hb

theorem cfgStart_cfgStatusLegal {s t : State} (h : CfgStatusLegal s) (hstep : cfgStart s = .next t) :
    CfgStatusLegal t := by
  obtain rfl | ⟨k, hk⟩ := cfgStart_cases hstep
  · exact cfgFinish_cfgStatusLegal cfgRecord_init
  · obtain ⟨m, _, rfl⟩ := cfgEncode_cases hk
    exact h.of_accumulated rfl ⟨cfgRecord_init, fun _ _ => BitVec.getLsbD_zero⟩

/-- The end of a template's wait: its bit is set, and the next template, if any, is past it (R192). -/
theorem cfgRecord_cfgStatusLegal {s : State} (h : CfgStatusLegal s) (hacc : s.Accumulated) (hk : s.kIdx < 8)
    (a : Bool) : CfgStatusLegal (cfgRecord s a) := by
  obtain ⟨hrecord, hfresh⟩ := hacc
  have hrecord' := hrecord.accumulate hk (hfresh _ le_rfl) a
  cases hnext : nextTemplate s.par s.variant (s.kIdx + 1) with
  | none =>
    rw [cfgRecord_of_last hnext]
    exact cfgFinish_cfgStatusLegal hrecord'
  | some k =>
    rw [cfgRecord_of_next hnext]
    obtain ⟨hle, _⟩ := nextTemplate_some hnext
    refine h.of_accumulated rfl ⟨hrecord', fun j (hj : k ≤ j) => ?_⟩
    refine (getLsbD_setMaskBit hk _ _ _).trans ?_
    rw [if_neg (by omega)]
    exact hfresh j (by omega)

theorem cfgWait_cfgStatusLegal {s t : State} (h : CfgStatusLegal s) (hacc : s.Accumulated)
    (hstep : cfgWait s = .next t) : CfgStatusLegal t := by
  cases ht : s.par.templates[s.kIdx]? with
  | none => simp [cfgWait, ht] at hstep
  | some m =>
    obtain ⟨u, hw⟩ | ⟨u, a, hw⟩ := ackWait_outcome s m.cls m.ident
    · cases (cfgWait_of_none ht hw).symm.trans hstep
      exact h.of_cfgView_eq (ackWait_cfgView hw)
    · cases (cfgWait_of_some ht hw).symm.trans hstep
      have hview := ackWait_cfgView hw
      obtain ⟨_, _, _, _, _, _, hk, hok, hatt, hokm⟩ := State.cfgView_parts hview
      refine cfgRecord_cfgStatusLegal (h.of_cfgView_eq hview) ?_ (by rw [hk]; exact s.inst.templateIndex_lt ht) a
      rwa [State.Accumulated, hk, hok, hatt, hokm]

theorem execCfgSeq_cfgStatusLegal {s t : State} (h : CfgStatusLegal s) (hb : s.status.busy = true)
    (hop : s.curOp = 0x0C) (hstep : execCfgSeq s = .next t) : CfgStatusLegal t := by
  by_cases hphase : s.phase = 0
  · exact cfgStart_cfgStatusLegal h ((execCfgSeq_of_phase_zero hphase).symm.trans hstep)
  · have hacc : s.Accumulated := h.running hb hop hphase
    obtain ⟨_, henc⟩ | ⟨_, rfl⟩ | ⟨_, hwait⟩ := execCfgSeq_started hphase hstep
    · obtain ⟨m, _, rfl⟩ := cfgEncode_cases henc
      exact h.of_accumulated rfl hacc
    · exact h.of_accumulated rfl hacc
    · exact cfgWait_cfgStatusLegal h hacc hwait

/-- One byte of OP selects CFG_SEQ (30_encoding.md R77). -/
theorem decodeOp_eq_cfgSeq {b : Byte} (h : decodeOp b = .cfgSeq) : b = 0x0C := by
  have hbyte := (decodeOp_isOpcodeOf Config.chipParams b).encoded
  rw [h] at hbyte
  simpa [encode] using hbyte.symm

/-- No other instruction writes CFG_STATUS, and none writes CUR_OP (10_state.md R33). -/
theorem exec_cfgStatusLegal_of_ne {i : Instr} {s t : State} (h : CfgStatusLegal s) (hi : i ≠ .cfgSeq)
    (hop : s.curOp ≠ 0x0C) (hstep : exec i s = .next t) : CfgStatusLegal t := by
  obtain ⟨_, _, hwrites, _⟩ := resultRegistersByInstruction i s t hstep
  obtain ⟨_, hcur, _⟩ := instructionsLeaveTheHostsState i s t hstep
  refine h.of_not_started (not_not.1 (mt hwrites hi)) fun ⟨_, hop', _⟩ => hop ?_
  rwa [← hcur]

theorem exec_decodeOp_cfgStatusLegal {s t : State} (h : CfgStatusLegal s) (hb : s.status.busy = true)
    (hstep : exec (decodeOp s.curOp) s = .next t) : CfgStatusLegal t := by
  by_cases hop : s.curOp = 0x0C
  · rw [hop] at hstep
    exact execCfgSeq_cfgStatusLegal h hb hop hstep
  · exact exec_cfgStatusLegal_of_ne h (mt decodeOp_eq_cfgSeq hop) hop hstep

/-! ## The moves of the agents -/

theorem engineMove_cfgStatusLegal {s t : State} (h : CfgStatusLegal s) (hstep : engineMove s = .next t) :
    CfgStatusLegal t := by
  cases hb : s.status.busy with
  | true => exact exec_decodeOp_cfgStatusLegal h hb ((engineMove_busy hb).symm.trans hstep)
  | false =>
    cases (engineMove_idle hb).symm.trans hstep
    exact h

/-- An issue starts at PHASE 0; no other register write reaches the sequence. -/
theorem regWrite_cfgStatusLegal {s t : State} {index : BitVec 5} {w : Word} (h : CfgStatusLegal s)
    (hwrite : s.regWrite index w = some t) : CfgStatusLegal t := by
  obtain rfl | rfl | ⟨c, i, pl, cap, tm, tmpl, rfl⟩ := regWrite_cases hwrite
  · exact h.of_not_started rfl fun ⟨_, _, hstarted⟩ => hstarted rfl
  · exact h
  · exact h.of_cfgView_eq rfl

theorem hostMove_cfgStatusLegal {s t : State} (h : CfgStatusLegal s) (hstep : hostMove s = .next t) :
    CfgStatusLegal t := by
  obtain ⟨_, rfl⟩ | ⟨rest, r, rfl⟩ | ⟨rest, rfl⟩ | ⟨_, rest, index, w, _, hw⟩ | ⟨_, rest, i, v, _, _, rfl⟩ |
    ⟨_, rest, i, v, _, _, rfl⟩ := hostMove_cases hstep
  · exact h
  · exact h.of_cfgView_eq rfl
  · exact h.of_cfgView_eq rfl
  · have hrest : CfgStatusLegal { s with program := rest } := h.of_cfgView_eq rfl
    exact regWrite_cfgStatusLegal hrest hw
  · exact h.of_cfgView_eq rfl
  · exact h.of_cfgView_eq rfl

theorem runMove_cfgStatusLegal {s t : State} {m : Move} (h : CfgStatusLegal s) (hstep : runMove m s = .next t) :
    CfgStatusLegal t := by
  cases m with
  | host => exact hostMove_cfgStatusLegal h hstep
  | engine => exact engineMove_cfgStatusLegal h hstep
  | receiver bs =>
    obtain ⟨arrived, rfl⟩ := receiverMove_rx hstep
    exact h.of_cfgView_eq rfl
  | clock ms => cases hstep; exact h.of_cfgView_eq rfl
  | reset =>
    cases hstep
    exact { recorded := .inl rfl, running := fun hb => by cases hb }

/-- Settles O43: within CFG_SEQ every step keeps the accumulators a record, and its completion writes that record. -/
theorem stepKeepsCfgStatusLegal : Obligations.StepKeepsCfgStatusLegal := by
  intro s t h hstep
  obtain ⟨m, rest, _, heq⟩ | ⟨_, heq⟩ := step_cases s <;> rw [heq] at hstep
  · have hrest : CfgStatusLegal { s with schedule := rest } := h.of_cfgView_eq rfl
    exact runMove_cfgStatusLegal hrest hstep
  · have hdraw : CfgStatusLegal s.freeDraw := h.of_cfgView_eq rfl
    split at hstep
    · rename_i hb
      exact exec_decodeOp_cfgStatusLegal hdraw hb hstep
    · exact hostMove_cfgStatusLegal hdraw hstep

end Sys2Proof.Machine
end

section
/-! A template's step of CFG_SEQ beside a SEND_CMD with the template's arguments (spec/44_config_sequence.md R197): the
encode, the write and the wait have the same effect on FRAME and the streams. -/

namespace Sys2Proof.Machine

/-! ## The same sub-operation of SEND_CMD -/

/-- The state with the arguments of a SEND_CMD of template t, at the sub-operation CFG_SEQ is at (R197). -/
def State.asSendCmd (s : State) (t : Template) (txp : Memory) : State :=
  { s with
    argClass := t.cls, argId := t.ident, argPlen := BitVec.ofNat 16 t.payload.length
    txp := txp, curOp := 0x03, phase := s.phase % 3 }

/-- FRAME, the streams and the wait: what a sub-operation works on (R197). -/
def State.transportView (s : State) : Memory × Word × List (List Byte) × List Byte × List Nat × Fin 8 × Bool :=
  (s.frame, s.frameLen, s.tx, s.rx, s.sleeps, s.ackPos, s.waiting)

theorem State.transportView_parts {s t : State} (h : s.transportView = t.transportView) :
    s.frame = t.frame ∧ s.frameLen = t.frameLen ∧ s.tx = t.tx ∧ s.rx = t.rx ∧ s.sleeps = t.sleeps ∧
      s.ackPos = t.ackPos ∧ s.waiting = t.waiting := by
  simpa only [State.transportView, Prod.mk.injEq] using h

/-- The argument check of SEND_CMD passes on a template's payload (R191), and the encode is the template's. -/
theorem execSendCmd_asSendCmd_encode {s : State} {t : Template} {txp : Memory} (hphase : s.phase % 3 = 0)
    (ht : t ∈ s.par.templates) (hpayload : Memory.readRange txp 0 t.payload.length = t.payload) :
    execSendCmd (s.asSendCmd t txp) =
      .next { (s.asSendCmd t txp).encodeToFrame t.cls t.ident t.payload with phase := 1 } := by
  have hfits : t.payload.length ≤ s.par.txpSize := s.inst.template_payload_le ht
  have hsize : s.par.txpSize ≤ 65535 := s.inst.txpSize_le
  have hlen : (s.asSendCmd t txp).argPlen.toNat = t.payload.length := Nat.mod_eq_of_lt (by omega)
  have hplen : ¬ (s.asSendCmd t txp).badPlen = true := by
    rw [badPlen_iff, hlen]
    exact Nat.not_lt.2 hfits
  have hoperand : (s.asSendCmd t txp).txpPayload = t.payload := by
    rw [State.txpPayload, hlen]
    exact hpayload
  rw [execSendCmd_of_phase_zero hphase, sendCmdEncode_of_fits hplen, hoperand]
  rfl

/-- PHASE 1 of SEND_CMD, if it does not stop with a fault. -/
theorem execSendCmd_transmit {s t : State} (hphase : s.phase = 1) (h : execSendCmd s = .next t) :
    t = { s.txWrite (Memory.readRange s.frame 0 s.frameLen.toNat) with phase := 2 } := by
  simp only [execSendCmd, hphase] at h
  split at h <;> cases h
  rename_i u hu
  rw [txFrame_eq hu]

/-- The two operations wait alike: the matcher sees neither the opcode nor the arguments but the timeout. -/
theorem ackWait_asSendCmd {s u : State} {c i : Byte} {r : Option Bool} (h : s.ackWait c i = (u, r)) (t : Template)
    (txp : Memory) : (s.asSendCmd t txp).ackWait c i = (u.asSendCmd t txp, r) := by
  obtain ⟨hwait, rfl, rfl⟩ | ⟨hwait, hlate, rfl, rfl⟩ | ⟨hwait, hdeadline, hrx, rfl, rfl⟩ |
    ⟨hwait, hdeadline, b, rest, hrx, rfl, rfl⟩ := ackWait_cases h
  · simp [State.ackWait, State.asSendCmd, hwait, State.ackBegin, State.timeout]
  · refine ackWait_late ?_ ?_ <;> assumption
  · simp [State.ackWait, State.ackIter, State.asSendCmd, State.wake, State.sleep, hwait, Nat.not_lt.2 hdeadline, hrx]
  · refine ackWait_byte ?_ ?_ ?_ <;> assumption

theorem sendCmdWait_of_none {s u : State} (h : s.ackWait s.argClass s.argId = (u, none)) : sendCmdWait s = u := by
  simp only [sendCmdWait, h]

theorem sendCmdWait_of_some {s u : State} {a : Bool} (h : s.ackWait s.argClass s.argId = (u, some a)) :
    sendCmdWait s = (u.setAcked a).finishOkOrFail a := by
  simp only [sendCmdWait, h]

/-- The outcome of template K is recorded in bit K of the masks and in the AND, whether or not another template
follows (R192). -/
theorem cfgRecord_outcome {s : State} (hk : s.kIdx < 8) (a : Bool) :
    (cfgRecord s a).attMask.getLsbD s.kIdx = true ∧ (cfgRecord s a).okMask.getLsbD s.kIdx = a ∧
      (cfgRecord s a).accOk = (s.accOk && a) := by
  have hbit (m : BitVec 8) (b : Bool) : (setMaskBit m s.kIdx b).getLsbD s.kIdx = b :=
    (getLsbD_setMaskBit hk m b s.kIdx).trans (if_pos rfl)
  obtain ⟨k, _, heq⟩ | ⟨_, heq⟩ := cfgRecord_cases s a <;> rw [heq] <;> exact ⟨hbit _ _, hbit _ _, rfl⟩

/-- With the wait over, the record of its outcome does not reach the transport. -/
theorem cfgRecord_transportView {s : State} (hclosed : s.waiting = false) (a : Bool) :
    (cfgRecord s a).transportView = s.transportView := by
  obtain ⟨k, _, heq⟩ | ⟨_, heq⟩ := cfgRecord_cases s a <;> rw [heq]
  · rfl
  · simp [State.transportView, cfgFinish, hclosed]

/-- A step of CFG_SEQ from s to u has the effect of a step of SEND_CMD that ends in u', the host's view apart: what
SEND_CMD puts into ACKED goes into the masks and the AND, and into ACKED after the last template (R197). -/
structure SameStep (s u u' : State) : Prop where
  transport : u.transportView = u'.transportView
  between : ∀ k, nextTemplate s.par s.variant (s.kIdx + 1) = some k → u.status = s.status
  outcome : s.waiting = true → u'.waiting = false →
    u.attMask.getLsbD s.kIdx = true ∧ u.okMask.getLsbD s.kIdx = u'.status.acked ∧
    u.accOk = (s.accOk && u'.status.acked) ∧
    (nextTemplate s.par s.variant (s.kIdx + 1) = none → u.status.acked = u'.status.acked)

/-- A step that ends no wait records no outcome. -/
theorem SameStep.of_no_outcome {s u u' : State} (transport : u.transportView = u'.transportView)
    (hstatus : u.status = s.status) (hwait : s.waiting = true → u'.waiting = true) : SameStep s u u' where
  transport := transport
  between := fun _ _ => hstatus
  outcome := fun hopen hclosed => by simp [hwait hopen] at hclosed

/-- The step that ends the wait with the outcome a: CFG_SEQ records it where SEND_CMD finishes with it. -/
theorem SameStep.of_outcome {s u u' : State} {c i : Byte} {a : Bool} (hk : s.kIdx < 8)
    (hwait : s.ackWait c i = (u, some a)) (htransport : u.transportView = u'.transportView) :
    SameStep s (cfgRecord u a) ((u'.setAcked a).finishOkOrFail a) := by
  have hclosed : u.waiting = false := ackWait_waiting hwait
  have hclosed' : u'.waiting = false := by
    obtain ⟨_, _, _, _, _, _, hsame⟩ := State.transportView_parts htransport
    rwa [← hsame]
  obtain ⟨hinst, hvariant, _, _, _, _, hkeep, hacc, _⟩ := State.cfgView_parts (ackWait_cfgView hwait)
  obtain ⟨hatt, hokm, hand⟩ := cfgRecord_outcome (s := u) (by rwa [hkeep]) a
  rw [hkeep] at hatt hokm
  rw [hacc] at hand
  constructor
  · rw [cfgRecord_transportView hclosed, htransport]
    simp [State.transportView, hclosed']
  · intro k hnext
    rw [State.par, ← hinst, ← hvariant, ← hkeep] at hnext
    rw [cfgRecord_of_next hnext]
    exact (ackWait_waitStep hwait).status
  · refine fun _ _ => ⟨hatt, hokm, hand, fun hlast => ?_⟩
    rw [State.par, ← hinst, ← hvariant, ← hkeep] at hlast
    rw [cfgRecord_of_last hlast]
    rfl

/-- PHASE 3K+2 of CFG_SEQ is PHASE 2 of SEND_CMD (R197). -/
theorem cfgWait_sameStep {s u : State} {t : Template} (ht : s.par.templates[s.kIdx]? = some t)
    (hstep : cfgWait s = .next u) (txp : Memory) : SameStep s u (sendCmdWait (s.asSendCmd t txp)) := by
  obtain ⟨v, hw⟩ | ⟨v, a, hw⟩ := ackWait_outcome s t.cls t.ident
  · cases (cfgWait_of_none ht hw).symm.trans hstep
    rw [sendCmdWait_of_none (ackWait_asSendCmd hw t txp)]
    exact .of_no_outcome rfl (ackWait_waitStep hw).status fun _ => ackWait_waiting hw
  · cases (cfgWait_of_some ht hw).symm.trans hstep
    rw [sendCmdWait_of_some (ackWait_asSendCmd hw t txp)]
    exact .of_outcome (s.inst.templateIndex_lt ht) hw rfl

/-- Each sub-operation of a template is that of SEND_CMD with the template's arguments (R197). -/
theorem execCfgSeq_sameStep {s u u' : State} {t : Template} {txp : Memory} (ht : s.par.templates[s.kIdx]? = some t)
    (hstarted : s.phase ≠ 0) (hpayload : Memory.readRange txp 0 t.payload.length = t.payload)
    (hstep : execCfgSeq s = .next u) (hstep' : execSendCmd (s.asSendCmd t txp) = .next u') : SameStep s u u' := by
  obtain ⟨hphase, henc⟩ | ⟨hphase, rfl⟩ | ⟨hphase, hwait⟩ := execCfgSeq_started hstarted hstep
  · cases (cfgEncode_of_template ht).symm.trans henc
    cases (execSendCmd_asSendCmd_encode hphase (List.mem_of_getElem? ht) hpayload).symm.trans hstep'
    exact .of_no_outcome rfl rfl id
  · obtain rfl := execSendCmd_transmit hphase hstep'
    exact .of_no_outcome rfl rfl id
  · cases (execSendCmd_of_phase_two hphase).symm.trans hstep'
    exact cfgWait_sameStep ht hwait txp

/-- Settles O44: the encode, the write and the wait, each beside the same sub-operation of SEND_CMD. -/
theorem cfgSeqStepIsASendCmd : Obligations.CfgSeqStepIsASendCmd := by
  intro s u s' u' t ht hstarted hargs hpayload hstep hstep'
  obtain ⟨txp, rfl⟩ : ∃ txp, s' = s.asSendCmd t txp := ⟨_, hargs⟩
  have hsame := execCfgSeq_sameStep ht hstarted hpayload hstep hstep'
  obtain ⟨hframe, hlen, htx, hrx, hsleeps, hpos, hwait⟩ := State.transportView_parts hsame.transport
  exact ⟨hframe, hlen, htx, hrx, hsleeps, hpos, hwait, hsame.between, hsame.outcome⟩

end Sys2Proof.Machine
end

section
/-! The template a running CFG_SEQ stands at (spec/60_exceptions.md R206, spec/44_config_sequence.md R192, R196): its
choice skips what is not for the variant, its encode puts that template's frame into FRAME, and the write hands
over what FRAME holds; no other move reaches the template or, between the two, FRAME. -/

namespace Sys2Proof.Machine

/-! ## The invariant and what it depends on -/

/-- CFG_SEQ stands at template t, which its variant admits, with t's frame in FRAME between the encode and the write. -/
def State.StandsAt (s : State) (t : Template) : Prop :=
  s.par.templates[s.kIdx]? = some t ∧ ¬ (t.gen2Only = true ∧ s.variant = .gen1) ∧
    (s.phase % 3 = 1 → s.frameLen.toNat = t.payload.length + 8 ∧
      Memory.readRange s.frame 0 (t.payload.length + 8) = frameBytes t.cls t.ident t.payload)

/-- CFG_SEQ past its first step: there is a template it stands at. -/
def State.InSequence (s : State) : Prop := s.status.busy = true ∧ s.curOp = 0x0C ∧ s.phase ≠ 0

theorem CfgTargetApplicable.of_standsAt {s : State} {t : Template} (hwf : s.frame.wf = true) (h : s.StandsAt t) :
    CfgTargetApplicable s :=
  ⟨hwf, fun _ _ _ => ⟨t, h⟩⟩

theorem CfgTargetApplicable.of_not_inSequence {s : State} (hwf : s.frame.wf = true) (h : ¬ s.InSequence) :
    CfgTargetApplicable s :=
  ⟨hwf, fun hb hop hphase => absurd ⟨hb, hop, hphase⟩ h⟩

/-- The template stood at depends on the sequence and on the frame alone. -/
theorem State.StandsAt.of_views {s t : State} {m : Template} (h : s.StandsAt m) (cfg : t.cfgView = s.cfgView)
    (frame : t.frameView = s.frameView) : t.StandsAt m := by
  obtain ⟨hinst, hvariant, _, _, _, hphase, hk, _⟩ := State.cfgView_parts cfg
  obtain ⟨_, hframe, hlen, _⟩ := State.frameView_parts frame
  simpa only [State.StandsAt, State.par, hinst, hvariant, hphase, hk, hframe, hlen] using h

/-- What a move has to show: the invariant after it, and what it sends if it is a step of CFG_SEQ. -/
structure TargetStep (s t : State) : Prop where
  applicable : CfgTargetApplicable t
  sends : s.status.busy = true → s.curOp = 0x0C → t.tx = s.tx ∨ ∃ u ∈ s.par.templates,
    ¬ (u.gen2Only = true ∧ s.variant = .gen1) ∧ t.tx = s.tx ++ [frameBytes u.cls u.ident u.payload]

/-- A move that reaches neither the sequence nor the frame. -/
theorem TargetStep.of_views {s t : State} (h : CfgTargetApplicable s) (cfg : t.cfgView = s.cfgView)
    (frame : t.frameView = s.frameView) : TargetStep s t := by
  obtain ⟨_, _, _, hb, hop, hphase, _⟩ := State.cfgView_parts cfg
  obtain ⟨_, hframe, _, htx⟩ := State.frameView_parts frame
  refine ⟨⟨by rw [hframe]; exact h.canonical, fun hb' hop' hstarted => ?_⟩, fun _ _ => .inl htx⟩
  obtain ⟨m, hm⟩ := h.target (hb ▸ hb') (hop ▸ hop') (hphase ▸ hstarted)
  exact ⟨m, State.StandsAt.of_views hm cfg frame⟩

/-- A move after which no template is stood at, and which sends nothing. -/
theorem TargetStep.of_not_inSequence {s t : State} (hwf : t.frame.wf = true) (htx : t.tx = s.tx)
    (h : ¬ t.InSequence) : TargetStep s t :=
  ⟨.of_not_inSequence hwf h, fun _ _ => .inl htx⟩

/-! ## The steps of CFG_SEQ -/

/-- FRAME_LEN holds the length of a frame whose payload fits TXP (40_command_encoder.md R92). -/
theorem encodeToFrame_frameLen_toNat {s : State} {p : List Byte} (hp : p.length ≤ s.par.txpSize) (c i : Byte) :
    (s.encodeToFrame c i p).frameLen.toNat = p.length + 8 := by
  have hsize : s.par.txpSize ≤ 65535 := s.inst.txpSize_le
  exact Nat.mod_eq_of_lt (by omega)

/-- The encode of a template that the variant admits. -/
theorem cfgEncode_targetStep {s t : State} {k : Nat} {m : Template} (hwf : s.frame.wf = true)
    (hm : s.par.templates[k]? = some m) (hadmits : ¬ (m.gen2Only = true ∧ s.variant = .gen1))
    (hstep : cfgEncode s k = .next t) : TargetStep s t := by
  cases (cfgEncode_of_template hm).symm.trans hstep
  have hfits := s.inst.template_payload_le (List.mem_of_getElem? hm)
  refine ⟨.of_standsAt (t := m) (Memory.writeRange_wf _ hwf 0) ⟨hm, hadmits, fun _ => ⟨?_, ?_⟩⟩, fun _ _ => .inl rfl⟩
  · exact encodeToFrame_frameLen_toNat hfits m.cls m.ident
  · exact readRange_encoded hwf m.cls m.ident m.payload

/-- The template that CFG_SEQ goes to is one its variant admits (R192). -/
theorem nextTemplate_admits {p : Params} {v : Variant} {k j : Nat} (h : nextTemplate p v k = some j) :
    ∃ m, p.templates[j]? = some m ∧ ¬ (m.gen2Only = true ∧ v = .gen1) := by
  obtain ⟨_, ⟨m, hm, happlicable⟩, _⟩ := nextTemplate_some h
  exact ⟨m, hm, (applicable_iff v m).1 happlicable⟩

theorem cfgStart_targetStep {s t : State} (hwf : s.frame.wf = true) (hstep : cfgStart s = .next t) :
    TargetStep s t := by
  cases hnext : nextTemplate s.par s.variant 0 with
  | none =>
    cases (cfgStart_of_none hnext).symm.trans hstep
    exact .of_not_inSequence hwf rfl fun ⟨hb, _⟩ => by cases hb
  | some k =>
    obtain ⟨m, hm, hadmits⟩ := nextTemplate_admits hnext
    have henc := cfgEncode_targetStep (s := { s with accOk := true, attMask := 0, okMask := 0 }) hwf hm hadmits
      ((cfgStart_of_some hnext).symm.trans hstep)
    exact ⟨henc.applicable, henc.sends⟩

/-- PHASE 3K+1 hands over the frame of template K. -/
theorem cfgTransmit_targetStep {s : State} {m : Template} (hwf : s.frame.wf = true) (hm : s.StandsAt m)
    (hphase : s.phase % 3 = 1) :
    TargetStep s { s.txWrite (Memory.readRange s.frame 0 s.frameLen.toNat) with phase := s.phase + 1 } := by
  obtain ⟨htempl, hadmits, hframe⟩ := hm
  obtain ⟨hlen, hbytes⟩ := hframe hphase
  have hnext : ¬ (s.phase + 1) % 3 = 1 := by omega
  refine ⟨.of_standsAt (t := m) hwf ⟨htempl, hadmits, fun h => absurd h hnext⟩, fun _ _ => .inr ?_⟩
  refine ⟨m, List.mem_of_getElem? htempl, hadmits, ?_⟩
  rw [← hbytes, ← hlen]
  rfl

/-- The end of a template's ACK wait goes to a template before its encode, or ends CFG_SEQ. -/
theorem cfgRecord_targetStep {s : State} (hwf : s.frame.wf = true) (a : Bool) : TargetStep s (cfgRecord s a) := by
  cases hnext : nextTemplate s.par s.variant (s.kIdx + 1) with
  | none =>
    rw [cfgRecord_of_last hnext]
    exact .of_not_inSequence hwf rfl fun ⟨hb, _⟩ => by cases hb
  | some k =>
    obtain ⟨m, hm, hadmits⟩ := nextTemplate_admits hnext
    have hphase : ¬ 3 * k % 3 = 1 := by omega
    rw [cfgRecord_of_next hnext]
    exact ⟨.of_standsAt (t := m) hwf ⟨hm, hadmits, fun h => absurd h hphase⟩, fun _ _ => .inl rfl⟩

theorem cfgWait_targetStep {s t : State} (h : CfgTargetApplicable s) (hstep : cfgWait s = .next t) :
    TargetStep s t := by
  obtain ⟨c, i, hw⟩ | ⟨c, i, u, a, hw, rfl⟩ := cfgWait_cases hstep
  · exact .of_views h (ackWait_cfgView hw) (ackWait_waitStep hw).frameView
  · obtain ⟨_, hframe, _, htx⟩ := State.frameView_parts (ackWait_waitStep hw).frameView
    have hrecord : TargetStep u (cfgRecord u a) := cfgRecord_targetStep (by rw [hframe]; exact h.canonical) a
    obtain ⟨_, _, hsent, _⟩ := State.transportView_parts (cfgRecord_transportView (ackWait_waiting hw) a)
    exact ⟨hrecord.applicable, fun _ _ => .inl (hsent.trans htx)⟩

theorem execCfgSeq_targetStep {s t : State} (h : CfgTargetApplicable s) (hb : s.status.busy = true)
    (hop : s.curOp = 0x0C) (hstep : execCfgSeq s = .next t) : TargetStep s t := by
  by_cases hphase : s.phase = 0
  · exact cfgStart_targetStep h.canonical ((execCfgSeq_of_phase_zero hphase).symm.trans hstep)
  · obtain ⟨m, hm⟩ := h.target hb hop hphase
    obtain ⟨_, henc⟩ | ⟨hphase, rfl⟩ | ⟨_, hwait⟩ := execCfgSeq_started hphase hstep
    · obtain ⟨htempl, hadmits, _⟩ := hm
      exact cfgEncode_targetStep h.canonical htempl hadmits henc
    · exact cfgTransmit_targetStep h.canonical hm hphase
    · exact cfgWait_targetStep h hwait

/-! ## The other instructions -/

/-- The end of a poll of ACQUIRE_FIX writes no frame. -/
theorem acquireEnd_frame (s : State) (r : RecvResult) : (acquireEnd s r).frame = s.frame := by
  unfold acquireEnd
  split
  · obtain ⟨f, a, heq⟩ := acquireEndGen2_eq s r
    simp [heq]
  · obtain ⟨f, a, acc, cap, heq | heq⟩ := acquireEndGen1_cases s (s.phase / 3) r <;> simp [heq]

theorem execSendCmd_frame_wf {s t : State} (hwf : s.frame.wf = true) (h : execSendCmd s = .next t) :
    t.frame.wf = true := by
  obtain rfl | rfl | rfl | rfl := execSendCmd_cases h
  · exact hwf
  · exact Memory.writeRange_wf _ hwf 0
  · exact hwf
  · obtain ⟨_, _, _, _, hframe, _⟩ := sendCmdWait_unchanged s
    rwa [hframe]

theorem execPoll_frame_wf {s t : State} (hwf : s.frame.wf = true) (h : execPoll s = .next t) :
    t.frame.wf = true := by
  obtain rfl | rfl | hrecv := execPoll_cases h
  · exact hwf
  · exact Memory.writeRange_wf _ hwf 0
  · obtain ⟨_, _, _, _, hframe, _⟩ := recvStepFinish_unchanged hrecv
    rwa [hframe]

theorem execAcquireFix_frame_wf {s t : State} (hwf : s.frame.wf = true) (h : execAcquireFix s = .next t) :
    t.frame.wf = true := by
  obtain ⟨c, i, rfl⟩ | ⟨c, i, hw⟩ | ⟨c, i, u, r, hw, rfl⟩ := execAcquireFix_cases h
  · obtain ⟨acc, cap, heq⟩ := acquireInit_eq s
    rw [heq]
    exact Memory.writeRange_wf _ hwf 0
  · obtain ⟨_, _, _, _, _, hframe, _⟩ := (recvWait_waitStep hw).unchanged
    rwa [hframe]
  · obtain ⟨_, _, _, _, _, hframe, _⟩ := (recvWait_waitStep hw).unchanged
    rwa [acquireEnd_frame, hframe]

/-- Of the instructions that write FRAME (10_state.md R33) each writes whole bytes into a canonical buffer. -/
theorem exec_frame_wf {i : Instr} {s t : State} (hi : i ≠ .cfgSeq) (hwf : s.frame.wf = true)
    (hstep : exec i s = .next t) : t.frame.wf = true := by
  by_cases hkeep : t.frame = s.frame
  · rwa [hkeep]
  · obtain ⟨_, _, _, _, _, hwrites, _⟩ := resultRegistersByInstruction i s t hstep
    obtain rfl | rfl | rfl | rfl | rfl | ⟨c, d, rfl⟩ := hwrites (.inl hkeep)
    · obtain rfl | rfl := execEncode_cases hstep
      · exact hwf
      · exact Memory.writeRange_wf _ hwf 0
    · exact execSendCmd_frame_wf hwf hstep
    · exact execPoll_frame_wf hwf hstep
    · exact execAcquireFix_frame_wf hwf hstep
    · exact absurd rfl hi
    · cases hstep
      exact Memory.writeRange_wf _ hwf 0

/-- One engine step of the operation in CUR_OP. -/
theorem exec_decodeOp_targetStep {s t : State} (h : CfgTargetApplicable s) (hb : s.status.busy = true)
    (hstep : exec (decodeOp s.curOp) s = .next t) : TargetStep s t := by
  by_cases hop : s.curOp = 0x0C
  · rw [hop] at hstep
    exact execCfgSeq_targetStep h hb hop hstep
  · obtain ⟨_, hcur, _⟩ := instructionsLeaveTheHostsState _ s t hstep
    have hwf := exec_frame_wf (mt decodeOp_eq_cfgSeq hop) h.canonical hstep
    refine ⟨.of_not_inSequence hwf fun ⟨_, hop', _⟩ => hop (hcur ▸ hop'), fun _ hop' => absurd hop' hop⟩

/-! ## The moves of the agents -/

theorem engineMove_targetStep {s t : State} (h : CfgTargetApplicable s) (hstep : engineMove s = .next t) :
    TargetStep s t := by
  cases hb : s.status.busy with
  | true => exact exec_decodeOp_targetStep h hb ((engineMove_busy hb).symm.trans hstep)
  | false =>
    cases (engineMove_idle hb).symm.trans hstep
    exact .of_views h rfl rfl

/-- An issue starts at PHASE 0, before any template; no other register write reaches the sequence. -/
theorem regWrite_targetStep {s t : State} {index : BitVec 5} {w : Word} (h : CfgTargetApplicable s)
    (hwrite : s.regWrite index w = some t) : TargetStep s t := by
  obtain rfl | rfl | ⟨c, i, pl, cap, tm, tmpl, rfl⟩ := regWrite_cases hwrite
  · exact .of_not_inSequence h.canonical rfl fun ⟨_, _, hstarted⟩ => hstarted rfl
  · exact .of_views h rfl rfl
  · exact .of_views h rfl rfl

theorem hostMove_targetStep {s t : State} (h : CfgTargetApplicable s) (hstep : hostMove s = .next t) :
    TargetStep s t := by
  obtain ⟨_, rfl⟩ | ⟨rest, r, rfl⟩ | ⟨rest, rfl⟩ | ⟨_, rest, index, w, _, hw⟩ | ⟨_, rest, i, v, _, _, rfl⟩ |
    ⟨_, rest, i, v, _, _, rfl⟩ := hostMove_cases hstep
  · exact .of_views h rfl rfl
  · exact .of_views h rfl rfl
  · exact .of_views h rfl rfl
  · have hrest : CfgTargetApplicable { s with program := rest } := ⟨h.canonical, h.target⟩
    have hwrite := regWrite_targetStep hrest hw
    exact ⟨hwrite.applicable, hwrite.sends⟩
  · exact .of_views h rfl rfl
  · exact .of_views h rfl rfl

theorem runMove_targetStep {s t : State} {m : Move} (h : CfgTargetApplicable s) (hstep : runMove m s = .next t) :
    TargetStep s t := by
  cases m with
  | host => exact hostMove_targetStep h hstep
  | engine => exact engineMove_targetStep h hstep
  | receiver bs =>
    obtain ⟨arrived, rfl⟩ := receiverMove_rx hstep
    exact .of_views h rfl rfl
  | clock ms => cases hstep; exact .of_views h rfl rfl
  | reset => cases hstep; exact .of_not_inSequence rfl rfl fun ⟨hb, _⟩ => by cases hb

theorem step_targetStep {s t : State} (h : CfgTargetApplicable s) (hstep : step s = .next t) : TargetStep s t := by
  obtain ⟨m, rest, _, heq⟩ | ⟨_, heq⟩ := step_cases s <;> rw [heq] at hstep
  · have hrest : CfgTargetApplicable { s with schedule := rest } := ⟨h.canonical, h.target⟩
    have hmove := runMove_targetStep hrest hstep
    exact ⟨hmove.applicable, hmove.sends⟩
  · have hdraw : CfgTargetApplicable s.freeDraw := ⟨h.canonical, h.target⟩
    have hmove : TargetStep s.freeDraw t := by
      split at hstep
      · rename_i hb
        exact exec_decodeOp_targetStep hdraw hb hstep
      · exact hostMove_targetStep hdraw hstep
    exact ⟨hmove.applicable, hmove.sends⟩

/-- Settles O37: CFG_SEQ goes only to templates its variant admits, and writes the frame its encode left in FRAME. -/
theorem stepKeepsCfgTargetApplicable : Obligations.StepKeepsCfgTargetApplicable :=
  fun _ _ h hstep => ⟨(step_targetStep h hstep).applicable, (step_targetStep h hstep).sends⟩

end Sys2Proof.Machine
end

section
/-! The codes of ERR (spec/60_exceptions.md R200, R203 to R205, R209): for each instruction the codes it can finish with,
and what the completions of the waits, of the acquisition and of CFG_SEQ give. -/

namespace Sys2Proof.Machine

/-! ## The codes of an instruction -/

/-- The codes an instruction can finish with (R200): NONE and FAIL end a wait, CAPACITY a receive, ILLEGAL an argument
check. -/
def finishCodes : Instr → List ErrCode
  | .encode | .transmit => [.none, .illegal]
  | .sendCmd => [.none, .fail, .illegal]
  | .ackWait | .cfgSeq => [.none, .fail]
  | .recvPayload | .poll => [.none, .fail, .capacity, .illegal]
  | .acquireFix => [.none, .fail, .capacity]
  | .decodePvt | .decodePos | .decodeStat | .decodeTime => [.none]
  | .reserved _ => [.illegal]
  | .frame _ _ _ _ _ | .ack _ _ _ | .nak _ _ _ | .pollRequest _ _ => []

/-- A step leaves DONE as it is, or ends with one of some codes in ERR. -/
def FinishesWithin (codes : List ErrCode) (s t : State) : Prop :=
  t.status.done = s.status.done ∨ t.status.err ∈ codes

theorem FinishesWithin.mono {codes codes' : List ErrCode} {s t : State} (h : FinishesWithin codes s t)
    (hsub : codes ⊆ codes') : FinishesWithin codes' s t :=
  h.imp_right fun hmem => hsub hmem

theorem FinishesWithin.of_status_eq {codes : List ErrCode} {s t : State} (h : t.status = s.status) :
    FinishesWithin codes s t :=
  .inl (by rw [h])

/-- A step after one that left STATUS alone. -/
theorem FinishesWithin.of_start {codes : List ErrCode} {s u t : State} (h : FinishesWithin codes u t)
    (hstatus : u.status = s.status) : FinishesWithin codes s t := by
  rwa [FinishesWithin, ← hstatus]

/-! ## The completions -/

/-- `finish(b, b ? NONE : FAIL)`. -/
theorem finishOkOrFail_err (s : State) (b : Bool) : (s.finishOkOrFail b).status.err ∈ [ErrCode.none, .fail] := by
  cases b <;> simp [State.finishOkOrFail]

/-- A timeout and a NAK end an ACK wait with FAIL. -/
theorem sendCmdWait_finishesWithin (s : State) : FinishesWithin [.none, .fail] s (sendCmdWait s) := by
  obtain hw | ⟨u, a, _, heq⟩ := sendCmdWait_cases s
  · exact .of_status_eq (ackWait_waitStep hw).status
  · rw [heq]
    exact .inr (finishOkOrFail_err _ a)

/-- A timeout ends a receive with FAIL, a frame that is too long with CAPACITY (R203, R204). -/
theorem RecvResult.err_mem (r : RecvResult) : r.err ∈ [ErrCode.none, .fail, .capacity] := by
  cases r <;> simp [RecvResult.err]

theorem recvStepFinish_finishesWithin {s t : State} (h : recvStepFinish s = .next t) :
    FinishesWithin [.none, .fail, .capacity] s t := by
  obtain hw | ⟨u, r, _, rfl⟩ := recvStepFinish_cases h
  · exact .of_status_eq (recvWait_waitStep hw).status
  · exact .inr r.err_mem

theorem acquireErr_mem (acc capSeen : Bool) : acquireErr acc capSeen ∈ [ErrCode.none, .fail, .capacity] := by
  cases acc <;> cases capSeen <;> decide

/-- The last poll of an acquisition ends it with FAIL or, if any poll was too long, CAPACITY (R209). -/
theorem acquireEnd_finishesWithin (s : State) (r : RecvResult) :
    FinishesWithin [.none, .fail, .capacity] s (acquireEnd s r) := by
  unfold acquireEnd
  split
  · obtain ⟨f, a, heq⟩ := acquireEndGen2_eq s r
    rw [heq]
    exact .inr r.err_mem
  · obtain ⟨f, a, acc, cap, heq | heq⟩ := acquireEndGen1_cases s (s.phase / 3) r <;> rw [heq]
    · exact .inr (acquireErr_mem acc cap)
    · exact .inl rfl

theorem cfgFinish_err (s : State) : (cfgFinish s).status.err ∈ [ErrCode.none, .fail] := finishOkOrFail_err _ _

theorem cfgRecord_finishesWithin (s : State) (a : Bool) : FinishesWithin [.none, .fail] s (cfgRecord s a) := by
  obtain ⟨k, _, heq⟩ | ⟨_, heq⟩ := cfgRecord_cases s a <;> rw [heq]
  · exact .inl rfl
  · exact .inr (cfgFinish_err _)

/-! ## The instructions -/

theorem execSendCmd_finishesWithin {s t : State} (h : execSendCmd s = .next t) :
    FinishesWithin [.none, .fail, .illegal] s t := by
  obtain rfl | rfl | rfl | rfl := execSendCmd_cases h
  · exact .inr (by simp)
  · exact .inl rfl
  · exact .inl rfl
  · exact (sendCmdWait_finishesWithin s).mono (by simp)

theorem execRecvPayload_finishesWithin {s t : State} (h : execRecvPayload s = .next t) :
    FinishesWithin [.none, .fail, .capacity, .illegal] s t := by
  obtain rfl | hrecv := execRecvPayload_cases h
  · exact .inr (by simp)
  · exact (recvStepFinish_finishesWithin hrecv).mono (by simp)

theorem execPoll_finishesWithin {s t : State} (h : execPoll s = .next t) :
    FinishesWithin [.none, .fail, .capacity, .illegal] s t := by
  obtain rfl | rfl | hrecv := execPoll_cases h
  · exact .inr (by simp)
  · exact .inl rfl
  · exact (recvStepFinish_finishesWithin hrecv).mono (by simp)

theorem execAcquireFix_finishesWithin {s t : State} (h : execAcquireFix s = .next t) :
    FinishesWithin [.none, .fail, .capacity] s t := by
  obtain ⟨c, i, rfl⟩ | ⟨c, i, hw⟩ | ⟨c, i, u, r, hw, rfl⟩ := execAcquireFix_cases h
  · obtain ⟨acc, cap, heq⟩ := acquireInit_eq s
    rw [heq]
    exact .inl rfl
  · exact .of_status_eq (recvWait_waitStep hw).status
  · exact (acquireEnd_finishesWithin u r).of_start (recvWait_waitStep hw).status

theorem execCfgSeq_finishesWithin {s t : State} (h : execCfgSeq s = .next t) :
    FinishesWithin [.none, .fail] s t := by
  obtain hstart | henc | rfl | hwait := execCfgSeq_cases h
  · obtain rfl | ⟨k, hk⟩ := cfgStart_cases hstart
    · exact .inr (cfgFinish_err _)
    · obtain ⟨m, _, rfl⟩ := cfgEncode_cases hk
      exact .inl rfl
  · obtain ⟨m, _, rfl⟩ := cfgEncode_cases henc
    exact .inl rfl
  · exact .inl rfl
  · obtain ⟨c, i, hw⟩ | ⟨c, i, u, a, hw, rfl⟩ := cfgWait_cases hwait
    · exact .of_status_eq (ackWait_waitStep hw).status
    · exact (cfgRecord_finishesWithin u a).of_start (ackWait_waitStep hw).status

theorem exec_finishesWithin {i : Instr} {s t : State} (h : exec i s = .next t) :
    FinishesWithin (finishCodes i) s t := by
  cases i with
  | encode => obtain rfl | rfl := execEncode_cases h <;> exact .inr (by simp [finishCodes])
  | transmit => obtain rfl | rfl := execTransmit_cases h <;> exact .inr (by simp [finishCodes])
  | sendCmd => exact execSendCmd_finishesWithin h
  | ackWait =>
    cases (execAckWait_eq s).symm.trans h
    exact sendCmdWait_finishesWithin s
  | recvPayload => exact execRecvPayload_finishesWithin h
  | poll => exact execPoll_finishesWithin h
  | acquireFix => exact execAcquireFix_finishesWithin h
  | cfgSeq => exact execCfgSeq_finishesWithin h
  | decodePvt => cases h; exact .inr (by simp [finishCodes])
  | decodePos => cases h; exact .inr (by simp [finishCodes])
  | decodeStat => cases h; exact .inr (by simp [finishCodes])
  | decodeTime => cases h; exact .inr (by simp [finishCodes])
  | reserved _ => cases h; exact .inr (by simp [finishCodes])
  | frame _ _ _ _ _ => cases h; exact .inl rfl
  | ack _ _ _ => cases h; exact .inl rfl
  | nak _ _ _ => cases h; exact .inl rfl
  | pollRequest _ _ => cases h; exact .inl rfl

/-- The instructions by the codes they can finish with (R203, R204, R205). -/
theorem finishCodes_raisers (i : Instr) :
    (.fail ∈ finishCodes i → i = .ackWait ∨ i = .sendCmd ∨ i = .recvPayload ∨ i = .poll ∨ i = .acquireFix ∨
      i = .cfgSeq) ∧
    (.capacity ∈ finishCodes i → i = .recvPayload ∨ i = .poll ∨ i = .acquireFix) ∧
    (.illegal ∈ finishCodes i → i = .encode ∨ i = .sendCmd ∨ i = .recvPayload ∨ i = .poll ∨ i = .transmit ∨
      ∃ b, i = .reserved b) := by
  cases i <;> simp [finishCodes]

/-- Settles O58: a step that finishes has one of its instruction's codes in ERR. -/
theorem errorCodesByInstruction : Obligations.ErrorCodesByInstruction := by
  refine ⟨⟨rfl, rfl, rfl, rfl⟩, fun i s t h hrunning hdone => ?_⟩
  have hcode : t.status.err ∈ finishCodes i := by
    obtain hsame | hmem := exec_finishesWithin h
    · simp [hsame, hrunning] at hdone
    · exact hmem
  obtain ⟨hfail, hcapacity, hillegal⟩ := finishCodes_raisers i
  exact ⟨fun herr => hfail (herr ▸ hcode), fun herr => hcapacity (herr ▸ hcode), fun herr => hillegal (herr ▸ hcode)⟩

end Sys2Proof.Machine
end

section
/-! The deadline (spec/60_exceptions.md R219): past it the next engine step ends the wait of each of the six waiting
operations (spec/41_ack_matcher.md R118, spec/42_payload_demux.md R137). -/

namespace Sys2Proof.Machine

/-- The engine step that ends a wait at the deadline: the operation waits no more and takes no byte, and one that waits
only once has failed. -/
structure EndsAtDeadline (s t : State) : Prop where
  step : engineMove s = .next t
  closed : t.waiting = false
  rx : t.rx = s.rx
  failed : s.curOp = 0x03 ∨ s.curOp = 0x04 ∨ s.curOp = 0x05 ∨ s.curOp = 0x06 →
    t.status.done = true ∧ t.status.err = .fail

/-- The engine's move runs the operation that CUR_OP selects. -/
theorem engineMove_of_exec {s t : State} {v : Byte} {i : Instr} (hrun : Running s v) (hi : decodeOp v = i)
    (h : exec i s = .next t) : engineMove s = .next t := by
  obtain ⟨hb, rfl⟩ := hrun
  rw [engineMove_busy hb, hi, h]

section
variable {s : State}

/-- ACK_WAIT, and PHASE 2 of SEND_CMD. -/
theorem ackWait_endsAtDeadline (hrun : Running s 0x04 ∨ (Running s 0x03 ∧ s.phase = 2)) (hwait : s.waiting = true)
    (hlate : s.deadline < s.now) : ∃ t, EndsAtDeadline s t := by
  have hend := congrArg (Host.Outcome.next (φ := Fault) (ρ := Refusal)) (sendCmdWait_late hwait hlate)
  obtain hrun | ⟨hrun, hphase⟩ := hrun
  · have hstep := engineMove_of_exec hrun (i := .ackWait) rfl ((execAckWait_eq s).trans hend)
    exact ⟨_, hstep, rfl, rfl, fun _ => ⟨rfl, rfl⟩⟩
  · have hstep := engineMove_of_exec hrun (i := .sendCmd) rfl ((execSendCmd_of_phase_two hphase).trans hend)
    exact ⟨_, hstep, rfl, rfl, fun _ => ⟨rfl, rfl⟩⟩

/-- RECV_PAYLOAD, and PHASE 2 of POLL. -/
theorem recvPayload_endsAtDeadline (hrun : Running s 0x05 ∨ (Running s 0x06 ∧ s.phase = 2))
    (hwait : s.waiting = true) (hlate : s.deadline < s.now) : ∃ t, EndsAtDeadline s t := by
  have hend := recvStepFinish_late hwait hlate
  obtain hrun | ⟨hrun, hphase⟩ := hrun
  · have hstep := engineMove_of_exec hrun rfl ((execRecvPayload_of_waiting hwait).trans hend)
    exact ⟨_, hstep, rfl, rfl, fun _ => ⟨rfl, rfl⟩⟩
  · have hstep := engineMove_of_exec hrun rfl ((execPoll_of_phase_two hphase).trans hend)
    exact ⟨_, hstep, rfl, rfl, fun _ => ⟨rfl, rfl⟩⟩

/-- The end of a poll of ACQUIRE_FIX opens no receive. -/
theorem acquireEnd_waiting (hclosed : s.waiting = false) (r : RecvResult) : (acquireEnd s r).waiting = false := by
  unfold acquireEnd
  split
  · rfl
  · obtain ⟨_, _, _, hwait⟩ := acquireEndGen1_unchanged s (s.phase / 3) r
    exact hwait hclosed

/-- PHASE 3j+2 of ACQUIRE_FIX. -/
theorem acquireFix_endsAtDeadline (hrun : Running s 0x0B) (hphase : s.phase % 3 = 2) (hwait : s.waiting = true)
    (hlate : s.deadline < s.now) : ∃ t, EndsAtDeadline s t := by
  have hstep := engineMove_of_exec hrun rfl
    (execAcquireFix_of_recvWait hphase fun _ _ => recvWait_late hwait hlate)
  obtain ⟨_, _, hrx⟩ := acquireEnd_unchanged { s with asleep := none, waiting := false } .timeout
  obtain ⟨_, hop⟩ := hrun
  exact ⟨_, hstep, acquireEnd_waiting rfl _, hrx, fun hother => by simp [hop] at hother⟩

/-- PHASE 3K+2 of CFG_SEQ, at a template of the table. -/
theorem cfgSeq_endsAtDeadline (hrun : Running s 0x0C) (hphase : s.phase % 3 = 2)
    (hk : s.kIdx < s.par.templates.length) (hwait : s.waiting = true) (hlate : s.deadline < s.now) :
    ∃ t, EndsAtDeadline s t := by
  have hlast := cfgWait_of_some (List.getElem?_eq_getElem hk) (ackWait_late hwait hlate)
  have hstep := engineMove_of_exec hrun (i := .cfgSeq) rfl ((execCfgSeq_of_wait hphase).trans hlast)
  obtain ⟨_, _, _, hrx, _, _, hclosed⟩ := State.transportView_parts
    (cfgRecord_transportView (s := { s with asleep := none, waiting := false }) rfl false)
  obtain ⟨_, hop⟩ := hrun
  exact ⟨_, hstep, hclosed, hrx, fun hother => by simp [hop] at hother⟩

end

/-- Settles O59: the late step of the ACK wait or of the receive, in each operation that waits. -/
theorem deadlineEndsEveryWait : Obligations.DeadlineEndsEveryWait := by
  intro s hb hwait hlate hinside hop
  have hend : ∃ t, EndsAtDeadline s t := by
    obtain hop | hop | ⟨hop, hphase⟩ | ⟨hop, hphase⟩ | ⟨hop, hphase⟩ | ⟨hop, hphase⟩ := hop
    · exact ackWait_endsAtDeadline (.inl ⟨hb, hop⟩) hwait hlate
    · exact recvPayload_endsAtDeadline (.inl ⟨hb, hop⟩) hwait hlate
    · exact ackWait_endsAtDeadline (.inr ⟨⟨hb, hop⟩, hphase⟩) hwait hlate
    · exact recvPayload_endsAtDeadline (.inr ⟨⟨hb, hop⟩, hphase⟩) hwait hlate
    · exact acquireFix_endsAtDeadline ⟨hb, hop⟩ hphase hwait hlate
    · exact cfgSeq_endsAtDeadline ⟨hb, hop⟩ hphase (hinside.template hb hop (by omega)) hwait hlate
  obtain ⟨t, hstep, hclosed, hrx, hfailed⟩ := hend
  exact ⟨t, hstep, hclosed, hrx, hfailed⟩

end Sys2Proof.Machine
end

section
/-! The static check of the host's program (spec/60_exceptions.md R206, second bullet, log 10): it is made access by
access, from the values ARG_CLASS and ARG_ID then hold, and fails at exactly the issues of ENCODE, TRANSMIT and SEND_CMD
for a Gen2-only template under GEN1. -/

namespace Sys2Proof.Machine

/-! ## The check, access by access -/

/-- A write of OP that issues ENCODE, TRANSMIT or SEND_CMD. -/
def IssuesSend (a : Access) : Prop :=
  ∃ w : Word, a = .writeReg 0x00 w ∧ (w.setWidth 8 = 0x01#8 ∨ w.setWidth 8 = 0x02#8 ∨ w.setWidth 8 = 0x03#8)

/-- (c, i) is a Gen2-only template's (class, id). -/
def IsGen2Only (p : Params) (c i : Byte) : Prop :=
  ∃ t ∈ p.templates, t.gen2Only = true ∧ c = t.cls ∧ i = t.ident

theorem gen2OnlyTarget_iff (p : Params) (c i : Byte) : gen2OnlyTarget p c i = true ↔ IsGen2Only p c i := by
  simp [gen2OnlyTarget, IsGen2Only, and_assoc, eq_comm (b := c), eq_comm (b := i)]

theorem sendsCommand_iff (v : Byte) : sendsCommand v = true ↔ v = 0x01#8 ∨ v = 0x02#8 ∨ v = 0x03#8 := by
  simp [sendsCommand, or_assoc]

/-- What an argument register holds after one access and then some others. -/
theorem argByteAfter_cons (index : BitVec 5) (held : Byte) (a : Access) (rest : List Access) :
    argByteAfter index held (a :: rest) = argByteAfter index (argByteAfter index held [a]) rest := by
  cases a <;> rfl

/-- What an argument register holds after some accesses and then some others. -/
theorem argByteAfter_append (index : BitVec 5) (held : Byte) (before after : List Access) :
    argByteAfter index held (before ++ after) = argByteAfter index (argByteAfter index held before) after := by
  induction before generalizing held with
  | nil => rfl
  | cons a before ih => rw [List.cons_append, argByteAfter_cons, ih, ← argByteAfter_cons]

/-- The check of the first access, and the check of the others from the argument registers it leaves. -/
theorem programAdmitted_cons_iff (p : Params) (v : Variant) (c i : Byte) (a : Access) (rest : List Access) :
    programAdmitted p v c i (a :: rest) = true ↔
      ¬ (v = .gen1 ∧ IssuesSend a ∧ IsGen2Only p c i) ∧
      programAdmitted p v (argByteAfter 0x01 c [a]) (argByteAfter 0x02 i [a]) rest = true := by
  cases a with
  | writeReg index w =>
    by_cases h0 : index = 0
    · subst h0
      have hissue : IssuesSend (.writeReg 0 w) ↔ sendsCommand (w.setWidth 8) = true := by
        simp [IssuesSend, sendsCommand_iff]
      rw [hissue, ← gen2OnlyTarget_iff]
      simp only [programAdmitted, argByteAfter]
      cases v <;> cases gen2OnlyTarget p c i <;> simp
    · have hissue : ¬ IssuesSend (.writeReg index w) := by
        rintro ⟨_, heq, _⟩
        cases heq
        exact h0 rfl
      simp only [programAdmitted, argByteAfter, if_neg h0, hissue, false_and, and_false, not_false_eq_true, true_and]
      by_cases h1 : index = 1
      · simp [h1]
      · simp only [if_neg h1]
        split <;> rfl
  | readReg index => simp [programAdmitted, argByteAfter, IssuesSend]
  | readBuf b k => simp [programAdmitted, argByteAfter, IssuesSend]
  | writeBuf b k x => simp [programAdmitted, argByteAfter, IssuesSend]
  | wait => simp [programAdmitted, argByteAfter, IssuesSend]

/-- The check passes exactly if no access of the program sends a Gen2-only command under GEN1, with the argument registers
as the accesses before it leave them. -/
theorem programAdmitted_iff (p : Params) (v : Variant) (c i : Byte) (program : List Access) :
    programAdmitted p v c i program = true ↔ ∀ before a rest, program = before ++ a :: rest →
      ¬ (v = .gen1 ∧ IssuesSend a ∧ IsGen2Only p (argByteAfter 0x01 c before) (argByteAfter 0x02 i before)) := by
  induction program generalizing c i with
  | nil => simp [programAdmitted]
  | cons a program ih =>
    rw [programAdmitted_cons_iff, ih]
    constructor
    · rintro ⟨hfirst, hothers⟩ before b rest hsplit
      obtain ⟨rfl, hsplit⟩ | ⟨before, rfl, rfl⟩ := List.cons_eq_append_iff.1 hsplit
      · cases hsplit
        exact hfirst
      · rw [argByteAfter_cons _ c, argByteAfter_cons _ i]
        exact hothers before b rest rfl
    · refine fun hall => ⟨hall [] a program rfl, fun before b rest hsplit => ?_⟩
      have hlater := hall (a :: before) b rest (by rw [hsplit, List.cons_append])
      rwa [argByteAfter_cons _ c, argByteAfter_cons _ i] at hlater

/-! ## The host's move -/

/-- An access that is refused is refused for a reason of its own. -/
theorem hostAccess_ne_unsupported (a : Access) (s : State) : hostAccess a s ≠ .refused .unsupportedVariant := by
  cases a with
  | readReg index => simp only [hostAccess, hostReadReg]; (repeat' split) <;> simp
  | writeReg index w => simp only [hostAccess, hostWriteReg]; (repeat' split) <;> simp
  | readBuf b k => simp only [hostAccess, hostReadBuf]; (repeat' split) <;> simp
  | writeBuf b k x => simp only [hostAccess, hostWriteBuf]; (repeat' split) <;> simp
  | wait => simp [hostAccess]

/-- The host's move is refused for the variant exactly if the check fails. -/
theorem hostMove_unsupported_iff (s : State) :
    hostMove s = .refused .unsupportedVariant ↔
      ¬ programAdmitted s.par s.variant s.argClass s.argId s.program = true := by
  unfold hostMove
  split
  · rename_i hadm
    refine iff_of_false ?_ (not_not.2 hadm)
    split
    · simp
    · exact hostAccess_ne_unsupported _ _
  · rename_i hadm
    exact iff_of_true rfl hadm

/-- What an access does to what the check reads: it leaves the argument registers as the check says, and is off the
program, but for a WAIT, which may stay. -/
structure AccessStep (a : Access) (s t : State) : Prop where
  inst : t.inst = s.inst
  variant : t.variant = s.variant
  argClass : t.argClass = argByteAfter 0x01 s.argClass [a]
  argId : t.argId = argByteAfter 0x02 s.argId [a]
  program : t.program = s.program ∨ (a = .wait ∧ t.program = .wait :: s.program)

/-- A register write leaves ARG_CLASS and ARG_ID as the check says (10_state.md R20, R21). -/
theorem regWrite_accessStep {s t : State} {index : BitVec 5} {w : Word} (h : s.regWrite index w = some t) :
    AccessStep (.writeReg index w) s t := by
  obtain hmem | hmem | hmem := index_cases index
  · simp only [writableIndexes, List.mem_cons, List.not_mem_nil, or_false] at hmem
    obtain rfl | rfl | rfl | rfl | rfl | rfl | rfl := hmem <;> cases h <;> exact ⟨rfl, rfl, rfl, rfl, .inl rfl⟩
  · cases (regWrite_of_readOnly s w index hmem).symm.trans h
    have hclass : index ≠ 0x01 := by rintro rfl; exact absurd hmem (by decide)
    have hid : index ≠ 0x02 := by rintro rfl; exact absurd hmem (by decide)
    exact ⟨rfl, rfl, (if_neg hclass).symm, (if_neg hid).symm, .inl rfl⟩
  · simp [regWrite_of_reserved s w index hmem] at h

theorem hostAccess_accessStep {a : Access} {s t : State} (h : hostAccess a s = .next t) : AccessStep a s t := by
  cases a with
  | readReg index =>
    simp only [hostAccess, hostReadReg] at h
    (repeat' split at h) <;> cases h
    exact ⟨rfl, rfl, rfl, rfl, .inl rfl⟩
  | writeReg index w =>
    simp only [hostAccess, hostWriteReg] at h
    (repeat' split at h) <;> cases h
    exact regWrite_accessStep ‹_›
  | readBuf b k =>
    simp only [hostAccess, hostReadBuf] at h
    (repeat' split at h) <;> cases h
    exact ⟨rfl, rfl, rfl, rfl, .inl rfl⟩
  | writeBuf b k x =>
    simp only [hostAccess, hostWriteBuf] at h
    (repeat' split at h) <;> cases h <;> exact ⟨rfl, rfl, rfl, rfl, .inl rfl⟩
  | wait =>
    simp only [hostAccess, Host.Outcome.next.injEq] at h
    subst h
    unfold hostWait
    split
    · exact ⟨rfl, rfl, rfl, rfl, .inl rfl⟩
    · exact ⟨rfl, rfl, rfl, rfl, .inr ⟨rfl, rfl⟩⟩

/-- A program that passed the check passes it again after each of its accesses. -/
theorem hostMove_keeps_admitted {s t : State} (h : hostMove s = .next t) :
    programAdmitted t.par t.variant t.argClass t.argId t.program = true := by
  unfold hostMove at h
  split at h
  · rename_i hadm
    split at h
    · cases h
      exact hadm
    · rename_i a rest hp
      obtain ⟨hinst, hvariant, hclass, hid, hprogram⟩ := hostAccess_accessStep h
      rw [hp] at hadm
      rw [State.par, hinst, hvariant, hclass, hid]
      obtain hrest | ⟨rfl, hstays⟩ := hprogram
      · rw [hrest]
        obtain ⟨_, hothers⟩ := (programAdmitted_cons_iff _ _ _ _ a rest).1 hadm
        exact hothers
      · rw [hstays]
        exact hadm
  · cases h

/-- The host's move is refused for the variant at a program that sends a Gen2-only command under GEN1. -/
theorem hostMove_unsupported_of_issue {s : State} {before rest : List Access} {a : Access} (hv : s.variant = .gen1)
    (hp : s.program = before ++ a :: rest) (ha : IssuesSend a)
    (htarget : IsGen2Only s.par (argByteAfter 0x01 s.argClass before) (argByteAfter 0x02 s.argId before)) :
    hostMove s = .refused .unsupportedVariant := by
  rw [hostMove_unsupported_iff, programAdmitted_iff]
  exact fun hall => hall before a rest hp ⟨hv, ha, htarget⟩

/-- A text of R86 that writes ARG_CLASS and ARG_ID with a Gen2-only template's, then other arguments, and issues. -/
theorem hostMove_unsupported_of_text {s : State} {t : Template} {before args rest : List Access} {op : Byte}
    (hv : s.variant = .gen1) (ht : t ∈ s.par.templates) (hgen2 : t.gen2Only = true)
    (hop : IssuesSend (issueAccess op))
    (hclass : ∀ held, argByteAfter 0x01 held args = held) (hid : ∀ held, argByteAfter 0x02 held args = held)
    (hp : s.program = before ++ [.writeReg 0x01 (t.cls.setWidth 32), .writeReg 0x02 (t.ident.setWidth 32)] ++ args ++
      issueAccess op :: rest) :
    hostMove s = .refused .unsupportedVariant := by
  refine hostMove_unsupported_of_issue hv hp hop ⟨t, ht, hgen2, ?_, ?_⟩
  · rw [argByteAfter_append, hclass, argByteAfter_append]
    simp [argByteAfter]
  · rw [argByteAfter_append, hid, argByteAfter_append]
    simp [argByteAfter]

/-- Settles O14: the check fails at such an issue alone, and what is left of a program that passed it passes it. -/
theorem unsupportedVariantIsRefusedBeforeTheRun : Obligations.UnsupportedVariantIsRefusedBeforeTheRun := by
  refine ⟨fun s => ⟨fun hrefused => ?_, ?_⟩, fun s t n ms before rest hv ht hgen2 hp => ?_, fun p c i program => ?_,
    fun s t h => hostMove_keeps_admitted h⟩
  · rw [hostMove_unsupported_iff, programAdmitted_iff] at hrefused
    push Not at hrefused
    obtain ⟨before, _, rest, hp, hv, ⟨w, rfl, hop⟩, t, ht, hgen2, hclass, hid⟩ := hrefused
    exact ⟨hv, before, rest, w, t, hp, hop, ht, hgen2, hclass, hid⟩
  · rintro ⟨hv, before, rest, w, t, hp, hop, ht, hgen2, hclass, hid⟩
    exact hostMove_unsupported_of_issue hv hp ⟨w, rfl, hop⟩ ⟨t, ht, hgen2, hclass, hid⟩
  · obtain hp | hp := hp
    · exact hostMove_unsupported_of_text (before := before) (args := [.writeReg 0x03 (n.setWidth 32)]) (op := 0x01)
        (rest := .wait :: rest) hv ht hgen2 ⟨_, rfl, by decide⟩ (fun _ => rfl) (fun _ => rfl)
        (by simp [hp, encodeProgram])
    · exact hostMove_unsupported_of_text (before := before)
        (args := [.writeReg 0x03 (n.setWidth 32), .writeReg 0x05 ms]) (op := 0x03)
        (rest := .wait :: rest) hv ht hgen2 ⟨_, rfl, by decide⟩ (fun _ => rfl) (fun _ => rfl)
        (by simp [hp, sendProgram])
  · rw [programAdmitted_iff]
    exact fun _ _ _ _ ⟨hv, _⟩ => by cases hv

end Sys2Proof.Machine
end

section
/-! The end of every operation (spec/60_exceptions.md R219): an engine step of a running operation finishes it, brings it
nearer to its last sub-operation or to the end of its wait, or is an iteration of a wait before its deadline, of which the
fair clock of spec/10_state.md R39 allows only finitely many in a row. -/

namespace Sys2Proof.Machine

/-! ## How far an operation is from its end -/

/-- A bound on the sub-operations that an operation still goes on to (00_scope.md R14), from any PHASE and K, also those
that no run reaches: a wait is one of them, however long it lasts. -/
def subOpsLeft (i : Instr) (s : State) : Nat :=
  match i with
  | .sendCmd => 2 - s.phase
  | .poll => 1 - s.phase
  | .acquireFix => 2 * (3 - s.phase / 3) + (if s.phase % 3 = 0 then 1 else 0)
  | .cfgSeq => 3 * (s.par.templates.length - if s.phase = 0 then 0 else s.kIdx) + (2 - s.phase % 3)
  | _ => 0

/-- The rank of an operation: its sub-operations left, and whether the wait of the present one has still to begin. -/
def rankOf (i : Instr) (s : State) : Nat := 2 * subOpsLeft i s + (if s.waiting then 0 else 1)

/-- An engine step of a running operation: it finishes, comes nearer to the end, or waits before the deadline. -/
inductive EngineProgress (i : Instr) (s t : State) : Prop
  | finishes (idle : t.status.busy = false)
  | advances (rank : rankOf i t < rankOf i s)
  | waits (deadline : t.deadline = s.deadline) (rank : rankOf i t = rankOf i s) (early : s.now ≤ s.deadline)

/-- Going on to a later sub-operation is progress, whether or not a wait begins or ends. -/
theorem EngineProgress.of_subOpsLeft {i : Instr} {s t : State} (h : subOpsLeft i t < subOpsLeft i s) :
    EngineProgress i s t := by
  refine .advances ?_
  unfold rankOf
  split <;> split <;> omega

/-! ## The waits -/

/-- An engine step of a wait that goes on: the wait begins, or it is before its deadline and stays as it is. -/
structure WaitGoesOn (s t : State) : Prop where
  inst : t.inst = s.inst
  phase : t.phase = s.phase
  kIdx : t.kIdx = s.kIdx
  waiting : t.waiting = true
  early : s.waiting = true → t.deadline = s.deadline ∧ s.now ≤ s.deadline

theorem WaitGoesOn.subOpsLeft_eq {s t : State} (h : WaitGoesOn s t) (i : Instr) : subOpsLeft i t = subOpsLeft i s := by
  unfold subOpsLeft
  rw [State.par, h.inst, h.phase, h.kIdx]

theorem WaitGoesOn.progress {s t : State} (h : WaitGoesOn s t) (i : Instr) : EngineProgress i s t := by
  have hleft := h.subOpsLeft_eq i
  cases hw : s.waiting with
  | false => exact .advances (by simp [rankOf, hleft, h.waiting, hw])
  | true =>
    obtain ⟨hdeadline, hearly⟩ := h.early hw
    exact .waits hdeadline (by simp [rankOf, hleft, h.waiting, hw]) hearly

theorem ackWait_goesOn {s t : State} {c i : Byte} (h : s.ackWait c i = (t, none)) : WaitGoesOn s t := by
  obtain ⟨hclosed, rfl, _⟩ | ⟨_, _, _, hr⟩ | ⟨hw, hearly, _, rfl, _⟩ | ⟨_, hearly, b, rest, _, _, rfl⟩ :=
    ackWait_cases h
  · exact ⟨rfl, rfl, rfl, rfl, fun hopen => by simp [hclosed] at hopen⟩
  · cases hr
  · exact ⟨rfl, rfl, rfl, hw, fun _ => ⟨rfl, hearly⟩⟩
  · exact ⟨rfl, rfl, rfl, rfl, fun _ => ⟨rfl, hearly⟩⟩

theorem recvWait_goesOn {s t : State} {c i : Byte} {cap : Half} (h : s.recvWait c i cap = .ok (t, none)) :
    WaitGoesOn s t := by
  obtain ⟨hclosed, rfl, _⟩ | ⟨_, _, _, hr⟩ | ⟨hw, hearly, _, rfl, _⟩ | ⟨_, hearly, b, rest, _, _, _, rfl⟩ :=
    recvWait_cases h
  · exact ⟨rfl, rfl, rfl, rfl, fun hopen => by simp [hclosed] at hopen⟩
  · cases hr
  · exact ⟨rfl, rfl, rfl, hw, fun _ => ⟨rfl, hearly⟩⟩
  · exact ⟨rfl, rfl, rfl, rfl, fun _ => ⟨rfl, hearly⟩⟩

/-! ## The operations -/

theorem sendCmdWait_progress (i : Instr) (s : State) : EngineProgress i s (sendCmdWait s) := by
  obtain hw | ⟨u, a, _, heq⟩ := sendCmdWait_cases s
  · exact (ackWait_goesOn hw).progress i
  · rw [heq]
    exact .finishes rfl

theorem execSendCmd_progress {s t : State} (h : execSendCmd s = .next t) : EngineProgress .sendCmd s t := by
  unfold execSendCmd at h
  split at h
  · rename_i hphase
    cases h
    unfold sendCmdEncode
    split
    · exact .finishes rfl
    · exact .of_subOpsLeft (by simp [subOpsLeft, hphase])
  · rename_i hphase
    split at h <;> cases h
    exact .of_subOpsLeft (by simp [subOpsLeft, hphase])
  · cases h
    exact sendCmdWait_progress _ s

theorem recvStepFinish_progress {s t : State} (i : Instr) (h : recvStepFinish s = .next t) : EngineProgress i s t := by
  obtain hw | ⟨u, r, _, rfl⟩ := recvStepFinish_cases h
  · exact (recvWait_goesOn hw).progress i
  · exact .finishes rfl

theorem execPoll_progress {s t : State} (h : execPoll s = .next t) : EngineProgress .poll s t := by
  unfold execPoll at h
  split at h
  · rename_i hphase
    split at h <;> cases h
    · exact .finishes rfl
    · exact .of_subOpsLeft (by simp [subOpsLeft, hphase])
  · exact recvStepFinish_progress _ h

/-- The end of a poll of ACQUIRE_FIX ends it or goes on to the next of at most three polls. -/
theorem acquireEnd_progress {s u : State} (hphase : s.phase % 3 ≠ 0) (hkeep : u.phase = s.phase) (r : RecvResult) :
    EngineProgress .acquireFix s (acquireEnd u r) := by
  unfold acquireEnd
  split
  · exact .finishes rfl
  · simp only [acquireEndGen1]
    split
    · exact .finishes rfl
    · refine .of_subOpsLeft ?_
      simp only [subOpsLeft, hkeep, if_neg hphase]
      split <;> omega

theorem execAcquireFix_progress {s t : State} (h : execAcquireFix s = .next t) : EngineProgress .acquireFix s t := by
  simp only [execAcquireFix] at h
  split at h
  · rename_i hphase
    cases h
    obtain ⟨acc, cap, heq⟩ := acquireInit_eq s
    refine .of_subOpsLeft ?_
    simp only [subOpsLeft, heq, State.sendPollRequest_writes, if_pos hphase]
    split <;> omega
  · rename_i hphase
    split at h <;> rename_i hw <;> cases h
    · exact (recvWait_goesOn hw).progress _
    · obtain ⟨_, _, _, _, _, hkeep, _⟩ := recvWait_unchanged hw
      exact acquireEnd_progress hphase hkeep _

/-- Past the first step of CFG_SEQ: three sub-operations for every template from K on. -/
theorem subOpsLeft_cfgSeq {s : State} (h : s.phase ≠ 0) :
    subOpsLeft .cfgSeq s = 3 * (s.par.templates.length - s.kIdx) + (2 - s.phase % 3) := by
  simp only [subOpsLeft, if_neg h]

theorem EngineProgress.of_cfgSeq {s t : State} (hinst : t.inst = s.inst) (hstarted : t.phase ≠ 0)
    (h : 3 * (s.par.templates.length - t.kIdx) + (2 - t.phase % 3) < subOpsLeft .cfgSeq s) :
    EngineProgress .cfgSeq s t := by
  refine .of_subOpsLeft ?_
  rwa [subOpsLeft_cfgSeq hstarted, State.par, hinst]

theorem cfgStart_progress {s t : State} (hphase : s.phase = 0) (h : cfgStart s = .next t) :
    EngineProgress .cfgSeq s t := by
  obtain rfl | ⟨k, hk⟩ := cfgStart_cases h
  · exact .finishes rfl
  · obtain ⟨m, _, rfl⟩ := cfgEncode_cases hk
    have hleft : subOpsLeft .cfgSeq s = 3 * s.par.templates.length + 2 := by simp [subOpsLeft, hphase]
    refine .of_cfgSeq rfl (Nat.succ_ne_zero _) ?_
    rw [hleft]
    dsimp only
    omega

/-- The end of a template's wait ends CFG_SEQ or goes on to a later template of the table. -/
theorem cfgRecord_progress {s u : State} (hphase : s.phase ≠ 0) (view : u.cfgView = s.cfgView) (a : Bool) :
    EngineProgress .cfgSeq s (cfgRecord u a) := by
  obtain ⟨hinst, _, _, _, _, _, hk, _⟩ := State.cfgView_parts view
  obtain ⟨k, hnext, heq⟩ | ⟨_, heq⟩ := cfgRecord_cases u a <;> rw [heq]
  · obtain ⟨hle, _⟩ := nextTemplate_some hnext
    have hlt : k < s.par.templates.length := by
      rw [State.par, ← hinst]
      exact nextTemplate_lt hnext
    rw [hk] at hle
    have hlater : 3 * k ≠ 0 := by omega
    refine .of_cfgSeq hinst hlater ?_
    rw [subOpsLeft_cfgSeq hphase]
    dsimp only
    omega
  · exact .finishes rfl

theorem execCfgSeq_progress {s t : State} (h : execCfgSeq s = .next t) : EngineProgress .cfgSeq s t := by
  by_cases hphase : s.phase = 0
  · exact cfgStart_progress hphase ((execCfgSeq_of_phase_zero hphase).symm.trans h)
  · obtain ⟨hencode, henc⟩ | ⟨hsend, rfl⟩ | ⟨_, hwait⟩ := execCfgSeq_started hphase h
    · obtain ⟨m, _, rfl⟩ := cfgEncode_cases henc
      refine .of_cfgSeq rfl (Nat.succ_ne_zero _) ?_
      rw [subOpsLeft_cfgSeq hphase]
      dsimp only
      omega
    · refine .of_cfgSeq rfl (Nat.succ_ne_zero _) ?_
      rw [subOpsLeft_cfgSeq hphase]
      simp only [State.txWrite_unchanged]
      omega
    · obtain ⟨c, i, hw⟩ | ⟨c, i, u, a, hw, rfl⟩ := cfgWait_cases hwait
      · exact (ackWait_goesOn hw).progress _
      · exact cfgRecord_progress hphase (ackWait_cfgView hw) a

/-- One engine step of any operation. -/
theorem exec_progress {i : Instr} {s t : State} (hi : i.source = .command) (h : exec i s = .next t) :
    EngineProgress i s t := by
  cases i with
  | encode => obtain rfl | rfl := execEncode_cases h <;> exact .finishes rfl
  | transmit => obtain rfl | rfl := execTransmit_cases h <;> exact .finishes rfl
  | sendCmd => exact execSendCmd_progress h
  | ackWait =>
    cases (execAckWait_eq s).symm.trans h
    exact sendCmdWait_progress _ s
  | recvPayload =>
    obtain rfl | hrecv := execRecvPayload_cases h
    · exact .finishes rfl
    · exact recvStepFinish_progress _ hrecv
  | poll => exact execPoll_progress h
  | acquireFix => exact execAcquireFix_progress h
  | cfgSeq => exact execCfgSeq_progress h
  | decodePvt => cases h; exact .finishes rfl
  | decodePos => cases h; exact .finishes rfl
  | decodeStat => cases h; exact .finishes rfl
  | decodeTime => cases h; exact .finishes rfl
  | reserved _ => cases h; exact .finishes rfl
  | frame _ _ _ _ _ => cases hi
  | ack _ _ _ => cases hi
  | nak _ _ _ => cases hi
  | pollRequest _ _ => cases hi

/-! ## An infinite run -/

/-- The rank of the operation in CUR_OP. -/
def State.rank (s : State) : Nat := rankOf (decodeOp s.curOp) s

/-- A step with nothing scheduled while the engine is busy: the operation finishes, comes nearer to its end, or waits
before the deadline. -/
theorem step_progress {s t : State} (hsched : s.schedule = []) (hb : s.status.busy = true) (h : step s = .next t) :
    t.status.busy = false ∨ t.rank < s.rank ∨ (t.deadline = s.deadline ∧ t.rank = s.rank ∧ s.now ≤ s.deadline) := by
  obtain ⟨m, rest, hcons, _⟩ | ⟨_, hstep⟩ := step_cases s
  · simp [hsched] at hcons
  · rw [hstep, if_pos hb] at h
    obtain ⟨_, hcur, _⟩ := instructionsLeaveTheHostsState _ _ t h
    have hop : t.curOp = s.curOp := hcur
    rw [State.rank, State.rank, hop]
    have hprogress := exec_progress (decodeOp_isOpcodeOf s.par s.curOp).source h
    cases hprogress with
    | finishes idle => exact .inl idle
    | advances rank => exact .inr (.inl rank)
    | waits deadline rank early =>
      exact .inr (.inr ⟨deadline, rank, (Nat.le_add_right s.now (clockDraw s.draws)).trans early⟩)

/-- With the schedule used up and the engine busy for ever, the clock passes the deadline of a wait, so the operation comes
nearer to its end. -/
theorem InfiniteRun.exists_rank_lt {r : Nat → State} (hr : InfiniteRun r) (hfair : FairRun r) {start : Nat}
    (hstart : (r 0).schedule.length ≤ start) (hbusy : ∀ m, start ≤ m → (r m).status.busy = true) :
    ∃ m, start ≤ m ∧ (r m).rank < (r start).rank := by
  by_contra! hnever
  have hwait (k : Nat) (hrank : (r (start + k)).rank = (r start).rank) :
      (r (start + k + 1)).deadline = (r (start + k)).deadline ∧ (r (start + k + 1)).rank = (r start).rank ∧
        (r (start + k)).now ≤ (r (start + k)).deadline := by
    obtain hidle | hlt | ⟨hdeadline, hsame, hearly⟩ :=
      step_progress (hr.schedule_nil (by omega)) (hbusy (start + k) (by omega)) (hr (start + k))
    · simp [hbusy (start + k + 1) (by omega)] at hidle
    · have hge := hnever (start + k + 1) (by omega)
      omega
    · exact ⟨hdeadline, hsame.trans hrank, hearly⟩
  have hsame (k : Nat) :
      (r (start + k)).rank = (r start).rank ∧ (r (start + k)).deadline = (r start).deadline := by
    induction k with
    | zero => exact ⟨rfl, rfl⟩
    | succ k ih =>
      obtain ⟨hrank, hdeadline⟩ := ih
      obtain ⟨hkeep, hrank', _⟩ := hwait k hrank
      exact ⟨hrank', hkeep.trans hdeadline⟩
  obtain ⟨m, hm⟩ := hfair (r start).deadline
  obtain ⟨hrank, hdeadline⟩ := hsame m
  obtain ⟨_, _, hearly⟩ := hwait m hrank
  have hmono : (r m).now ≤ (r (start + m)).now := hr.now_monotone (Nat.le_add_left m start)
  omega

/-- The engine is not busy for ever: its rank would have a least value past the schedule, and fall below it. -/
theorem InfiniteRun.exists_idle {r : Nat → State} (hr : InfiniteRun r) (hfair : FairRun r) (n : Nat) :
    ∃ m, n ≤ m ∧ (r m).status.busy = false := by
  by_contra! hbusy
  obtain ⟨start, hstart, hmin⟩ := (measure fun m => (r m).rank).wf.has_min {m | n ≤ m ∧ (r 0).schedule.length ≤ m}
    ⟨max n (r 0).schedule.length, le_max_left _ _, le_max_right _ _⟩
  obtain ⟨hn, hlen⟩ := hstart
  obtain ⟨m, hm, hlt⟩ := hr.exists_rank_lt hfair hlen fun m hm => by simpa using hbusy m (hn.trans hm)
  exact hmin m ⟨hn.trans hm, hlen.trans hm⟩ hlt

/-- Settles O5: a run outlasts its schedule, and from then on the rank of an engine busy for ever would fall for ever. -/
theorem everyOperationFinishes : Obligations.EveryOperationFinishes :=
  fun _ hr hfair n _ => hr.exists_idle hfair n

end Sys2Proof.Machine
end

section
/-! What the host reads after a reset (spec/70_reset_and_hazards.md R233): every register and every readable buffer byte
holds what spec/10_state.md R41 gives it. -/

namespace Sys2Proof.Machine

/-- The registers the host writes read 0 after a reset. -/
theorem regValue_assertReset_of_writable (s : State) :
    ∀ index ∈ writableIndexes, s.assertReset.regValue index = some 0 := by
  simp only [writableIndexes, List.forall_mem_cons]
  exact ⟨rfl, rfl, rfl, rfl, rfl, rfl, rfl, nofun⟩

/-- STATUS, ACQ_STATUS and CFG_STATUS as R41 sets them are words of zero bits. -/
theorem statusWords_reset :
    Status.reset.word = 0 ∧
    AcqStatus.word { success := false, p0Ok := false, p1Ok := false, p2Ok := false } = 0 ∧
    CfgStatus.word { cfgOk := false, attempted := 0, stepOk := 0 } = 0 := by decide

/-- The read-only registers read 0 after a reset, VARIANT apart. -/
theorem regValue_assertReset_of_readOnly (s : State) :
    ∀ index ∈ readOnlyIndexes, index ≠ 0x0D → s.assertReset.regValue index = some 0 := by
  simp only [readOnlyIndexes, List.forall_mem_cons]
  obtain ⟨hstatus, hacq, hcfg⟩ := statusWords_reset
  exact ⟨fun _ => congrArg some hstatus, fun _ => rfl, fun _ => rfl, fun _ => congrArg some hacq,
    fun _ => congrArg some hcfg, fun h => absurd rfl h, fun _ => rfl, fun _ => rfl, fun _ => rfl, fun _ => rfl,
    fun _ => rfl, fun _ => rfl, fun _ => rfl, fun _ => rfl, fun _ => rfl, fun _ => rfl, fun _ => rfl, nofun⟩

/-- The table of R233: VARIANT reads the strap, every other register 0. -/
theorem regValue_assertReset (s : State) {index : BitVec 5} (h : index ∉ reservedIndexes) :
    s.assertReset.regValue index = some (if index = 0x0D ∧ s.par.variant = .gen2 then 1 else 0) := by
  by_cases hvariant : index = 0x0D
  · subst hvariant
    calc s.assertReset.regValue 0x0D = some (variantWord s.par.variant) := rfl
      _ = some (if (0x0D : BitVec 5) = 0x0D ∧ s.par.variant = .gen2 then 1 else 0) := by
        cases s.par.variant <;> rfl
  · rw [if_neg fun hgen2 => hvariant hgen2.1]
    obtain hmem | hmem | hmem := index_cases index
    · exact regValue_assertReset_of_writable s index hmem
    · exact regValue_assertReset_of_readOnly s index hmem hvariant
    · exact absurd hmem h

/-- A reset clears the three buffers. -/
theorem read_buffer_assertReset (s : State) (b : Buffer) (i : Nat) : Memory.read (s.assertReset.buffer b) i = 0 := by
  cases b <;> rfl

/-- The altitude policy answers at least one metre (43_fix_decoder.md R165). -/
theorem altNorm_ne_zero (r : Word) : altNorm r ≠ 0 := by
  intro h
  have hclamp := altNorm_toNat r
  have hzero : (0 : Half).toNat = 0 := rfl
  rw [h] at hclamp
  omega

/-- Settles O8: a reset leaves the block idle, so the access is not refused and answers what the table of R233 says. -/
theorem readsAfterReset : Obligations.ReadsAfterReset := by
  refine ⟨fun s index rest hp hadm hindex => ?_, fun s b i rest hp hadm hi => ?_, altNorm_ne_zero⟩
  · exact hostMove_readReg (s := s.assertReset) hp hadm (.inl rfl) (regValue_assertReset s hindex)
  · have hread := hostAccess_readBuf (s := State.assertReset { s with program := rest }) rfl hi
    rw [read_buffer_assertReset] at hread
    exact (hostMove_cons (s := s.assertReset) hp hadm).trans hread

end Sys2Proof.Machine
end

section
/-! A sync byte left over before a frame (spec/70_reset_and_hazards.md R243): the demultiplexer takes the frame's own
first sync byte for a wrong second one. -/

namespace Sys2Proof.Machine

/-- A second 0xB5 is not the second sync byte and is not looked at again: the demultiplexer is back in SYNC1 (R135). -/
theorem dmxScan_sync1_twice {v : Bool} {c i : Byte} {cap : Half} {d : Dmx} (hst : d.st = .sync1) (m : Memory)
    (bs : List Byte) : dmxScan v c i cap d m (sync1 :: sync1 :: bs) = dmxScan v c i cap d m bs := by
  have hstay : ({ d with st := .sync1 } : Dmx) = d := by rw [← hst]
  have hne : sync1 ≠ sync2 := by decide
  rw [dmxScan_cons_go ((dmxStep_of_sync1 hst sync1).trans (congrArg (dmxGo d) (if_pos rfl))),
    dmxScan_cons_go ((dmxStep_of_sync2 rfl sync1).trans (congrArg (dmxGo _) (if_neg hne)))]
  exact congrArg (dmxScan v c i cap · m bs) hstay

/-- After a leftover 0xB5 the two sync bytes of a frame are dropped. -/
theorem dmxScan_leftover_sync1 {v : Bool} {c i : Byte} {cap : Half} {d : Dmx} (hst : d.st = .sync1) (m : Memory) :
    dmxScan v c i cap d m [sync1, sync1, sync2] = { dmx := d, resp := m, result := none, left := [] } := by
  have hne : ∀ b ∈ [sync2], b ≠ sync1 := by decide
  calc dmxScan v c i cap d m [sync1, sync1, sync2] = dmxScan v c i cap d m [sync2] := dmxScan_sync1_twice hst m _
    _ = dmxScan v c i cap d m [] := dmxScan_hunt hst hne m []

/-- Settles O32: the run is the demultiplexer over the leftover byte and the frame's two sync bytes. -/
theorem leftoverSyncByteHidesTheFrame : Obligations.LeftoverSyncByteHidesTheFrame := by
  intro s c i p rest hrun hwait hcap hrx hsched
  have hsync : s.rx = [sync1, sync1, sync2] ++ ((frameBytes c i p).drop 2 ++ rest) := hrx
  obtain ⟨t, hmoves, hends⟩ := run_recvPayload_begin hrun hwait hcap hsync rfl hsched
  rw [dmxScan_leftover_sync1 rfl] at hends
  exact ⟨t, hmoves, hends.status, congrArg Dmx.st hends.dmx, hends.rx⟩

end Sys2Proof.Machine
end

section
/-! A wait on an empty stream under the clock in which each sleep takes its interval and nothing else takes time
(spec/70_reset_and_hazards.md R251): it sleeps while the clock is not past the deadline, and fails at the first boundary
of its interval past it. -/

namespace Sys2Proof

/-- R6: a wait's sleep takes at least 1 ms. -/
theorem Instance.pollSleep_pos (i : Instance) : 0 < i.p.pollSleepAckMs ∧ 0 < i.p.pollSleepDmxMs := by
  have h := i.ok
  simp only [Params.admissible, Bool.and_eq_true, decide_eq_true_eq, and_assoc] at h
  obtain ⟨_, _, _, _, hack, hdmx, _⟩ := h
  exact ⟨hack, hdmx⟩

end Sys2Proof

namespace Sys2Proof.Machine

/-! ## The engine moves of the wait -/

/-- The engine runs ACK_WAIT or RECV_PAYLOAD, whose wait sleeps `z` ms at a time (R119, R144). -/
def SingleWait (s : State) (z : Nat) : Prop :=
  (Running s 0x04 ∧ z = s.par.pollSleepAckMs) ∨ (Running s 0x05 ∧ z = s.par.pollSleepDmxMs)

/-- A wait that has just begun on an empty stream, with `moves` still to come (R112, R131). -/
structure BeginsOnEmptyStream (s t : State) (z : Nat) (moves : List Move) : Prop where
  step : step s = .next t
  operation : SingleWait t z
  waiting : t.waiting = true
  rx : t.rx = []
  now : t.now = s.now
  deadline : t.deadline = s.now + s.argTimeout.toNat
  sleeps : t.sleeps = s.sleeps
  schedule : t.schedule = moves

/-- A wait that is over: it has failed after `k` sleeps of `z` ms each, at the end of the last (R251). -/
structure TimesOutAfter (s t : State) (z k : Nat) : Prop where
  idle : t.status.busy = false
  done : t.status.done = true
  failed : t.status.err = .fail
  now : t.now = s.now + z * k
  sleeps : t.sleeps = s.sleeps ++ List.replicate k z

section
variable {s : State} {z : Nat} {moves : List Move}

theorem SingleWait.pos (hop : SingleWait s z) : 0 < z := by
  obtain ⟨hack, hdmx⟩ := s.inst.pollSleep_pos
  obtain ⟨_, rfl⟩ | ⟨_, rfl⟩ := hop
  · exact hack
  · exact hdmx

theorem ackWait_beginsOnEmptyStream (hrun : Running s 0x04) (hwait : s.waiting = false) (hrx : s.rx = [])
    (hsched : s.schedule = .engine :: moves) : ∃ t, BeginsOnEmptyStream s t s.par.pollSleepAckMs moves := by
  have hbegin := congrArg (Host.Outcome.next (φ := Fault) (ρ := Refusal))
    (sendCmdWait_begin (s := { s with schedule := moves }) hwait)
  exact ⟨_, (step_ackWait hrun hsched).trans hbegin, .inl ⟨hrun, rfl⟩, rfl, hrx, rfl, rfl, rfl, rfl⟩

theorem recvPayload_beginsOnEmptyStream (hrun : Running s 0x05) (hwait : s.waiting = false)
    (hcap : s.argCap.toNat ≤ s.par.respSize) (hrx : s.rx = []) (hsched : s.schedule = .engine :: moves) :
    ∃ t, BeginsOnEmptyStream s t s.par.pollSleepDmxMs moves := by
  have hbegin := execRecvPayload_begin (s := { s with schedule := moves }) hwait hcap
  exact ⟨_, (step_recvPayload hrun hsched).trans hbegin, .inr ⟨hrun, rfl⟩, rfl, hrx, rfl, rfl, rfl, rfl⟩

/-- While the deadline has not passed, the wait sleeps its interval. -/
theorem SingleWait.step_sleep (hop : SingleWait s z) (hopen : WaitOpen s) (hrx : s.rx = [])
    (hsched : s.schedule = .engine :: moves) :
    step s = .next { s with schedule := moves, sleeps := s.sleeps ++ [z], asleep := some z } := by
  obtain ⟨hrun, rfl⟩ | ⟨hrun, rfl⟩ := hop
  · exact (step_ackWait hrun hsched).trans
      (congrArg _ (sendCmdWait_sleep (s := { s with schedule := moves }) hopen hrx))
  · have hsleep := (execRecvPayload_of_waiting (s := { s with schedule := moves }) hopen.1).trans
      (recvStepFinish_sleep hopen hrx)
    exact (step_recvPayload hrun hsched).trans hsleep

/-- The clock's move advances the clock and changes nothing else (10_state.md R39). -/
theorem step_clock {ms : Nat} (hsched : s.schedule = .clock ms :: moves) :
    step s = .next { s with schedule := moves, now := s.now + ms } :=
  step_of_schedule hsched

/-- A sleep, and the clock's advance by its interval. -/
theorem SingleWait.run_sleep (hop : SingleWait s z) (hopen : WaitOpen s) (hrx : s.rx = [])
    (hsched : s.schedule = .engine :: .clock z :: moves) (n : Nat) :
    Host.Core.run core (n + 2) s = Host.Core.run core n
      { s with schedule := moves, sleeps := s.sleeps ++ [z], asleep := some z, now := s.now + z } :=
  (run_succ_of_next (n + 1) (hop.step_sleep hopen hrx hsched)).trans (run_succ_of_next n (step_clock rfl))

/-- Past the deadline, the wait fails without another sleep. -/
theorem SingleWait.step_late (hop : SingleWait s z) (hwait : s.waiting = true) (hlate : s.deadline < s.now)
    (hsched : s.schedule = .engine :: moves) : ∃ t, step s = .next t ∧ TimesOutAfter s t z 0 := by
  obtain ⟨hrun, _⟩ | ⟨hrun, _⟩ := hop
  · have hend := congrArg (Host.Outcome.next (φ := Fault) (ρ := Refusal))
      (sendCmdWait_late (s := { s with schedule := moves }) hwait hlate)
    exact ⟨_, (step_ackWait hrun hsched).trans hend, rfl, rfl, rfl, rfl, (List.append_nil _).symm⟩
  · have hend := (execRecvPayload_of_waiting (s := { s with schedule := moves }) hwait).trans
      (recvStepFinish_late hwait hlate)
    exact ⟨_, (step_recvPayload hrun hsched).trans hend, rfl, rfl, rfl, rfl, (List.append_nil _).symm⟩

end

/-! ## The run to the boundary -/

/-- The moves of R251 after the wait has begun: `k` sleeps of `z` ms, each as long as it says, and the iteration that
finds the clock past the deadline. -/
def sleepMoves (z k : Nat) : List Move := (List.replicate k [Move.engine, Move.clock z]).flatten ++ [Move.engine]

theorem sleepMoves_zero (z : Nat) : sleepMoves z 0 = [.engine] := rfl

theorem sleepMoves_succ (z k : Nat) : sleepMoves z (k + 1) = .engine :: .clock z :: sleepMoves z k := rfl

/-- A sleep adds one to the count of those after it. -/
theorem TimesOutAfter.of_sleep {s u t : State} {z k : Nat} (h : TimesOutAfter u t z k) (hnow : u.now = s.now + z)
    (hsleeps : u.sleeps = s.sleeps ++ [z]) : TimesOutAfter s t z (k + 1) where
  idle := h.idle
  done := h.done
  failed := h.failed
  now := by rw [h.now, hnow, Nat.mul_succ]; omega
  sleeps := by rw [h.sleeps, hsleeps, List.append_assoc, List.replicate_succ, List.singleton_append]

/-- A wait on an empty stream sleeps `k` times and fails, `k` being the number of sleeps after which the clock is past
the deadline for the first time. -/
theorem run_emptyStream {z k : Nat} {s : State} (hop : SingleWait s z) (hwait : s.waiting = true) (hrx : s.rx = [])
    (hfirst : s.now + z * k ≤ s.deadline + z) (hpast : s.deadline < s.now + z * k)
    (hsched : s.schedule = sleepMoves z k) :
    ∃ t, Host.Core.run core (2 * k + 1) s = .next t ∧ TimesOutAfter s t z k := by
  induction k generalizing s with
  | zero =>
    obtain ⟨t, hstep, hends⟩ := hop.step_late hwait hpast (hsched.trans (sleepMoves_zero z))
    exact ⟨t, run_succ_of_next 0 hstep, hends⟩
  | succ k ih =>
    rw [Nat.mul_succ] at hfirst hpast
    rw [sleepMoves_succ] at hsched
    have hopen : WaitOpen s := ⟨hwait, by omega⟩
    have hsleep := hop.run_sleep hopen hrx hsched (2 * k + 1)
    obtain ⟨t, hrun, hends⟩ := ih
      (s := { s with
        schedule := sleepMoves z k, sleeps := s.sleeps ++ [z], asleep := some z, now := s.now + z })
      hop hwait hrx (by dsimp only; omega) (by dsimp only; omega) rfl
    exact ⟨t, hsleep.trans hrun, hends.of_sleep rfl rfl⟩

/-- A wait that begins on an empty stream fails after ⌊t/z⌋ + 1 sleeps, whichever operation it is of. -/
theorem BeginsOnEmptyStream.run {s u : State} {z n : Nat} (h : BeginsOnEmptyStream s u z (sleepMoves z n))
    (hn : n = s.argTimeout.toNat / z + 1) :
    ∃ t, Host.Core.run core (2 * n + 2) s = .next t ∧ TimesOutAfter s t z n ∧
      s.now + s.argTimeout.toNat < t.now ∧ t.now ≤ s.now + s.argTimeout.toNat + z := by
  have habove : s.argTimeout.toNat < z * n := hn ▸ Nat.lt_mul_div_succ _ h.operation.pos
  have hbelow : z * n ≤ s.argTimeout.toNat + z := by
    have hfloor := Nat.mul_div_le s.argTimeout.toNat z
    rw [hn, Nat.mul_succ]
    omega
  obtain ⟨t, hrun, hends⟩ := run_emptyStream h.operation h.waiting h.rx
    (by rw [h.now, h.deadline]; omega) (by rw [h.now, h.deadline]; omega) h.schedule
  have hnow : t.now = s.now + z * n := by rw [hends.now, h.now]
  refine ⟨t, (run_succ_of_next (2 * n + 1) h.step).trans hrun, { hends with now := hnow, sleeps := ?_ }, ?_, ?_⟩
  · rw [hends.sleeps, h.sleeps]
  · omega
  · omega

/-- Settles O60: each of the two waits begins on the empty stream and runs to the boundary. -/
theorem emptyStreamTimesOutAtTheBoundary : Obligations.EmptyStreamTimesOutAtTheBoundary := by
  intro s v z n hbusy hwait hrx hkind hop hn hsched
  have hbegins : ∃ u, BeginsOnEmptyStream s u z (sleepMoves z n) := by
    obtain ⟨rfl, rfl⟩ | ⟨rfl, rfl, hcap⟩ := hkind
    · exact ackWait_beginsOnEmptyStream ⟨hbusy, hop⟩ hwait hrx hsched
    · exact recvPayload_beginsOnEmptyStream ⟨hbusy, hop⟩ hwait hcap hrx hsched
  obtain ⟨u, hbegin⟩ := hbegins
  obtain ⟨t, hrun, hends, hafter, hwithin⟩ := hbegin.run hn
  exact ⟨t, hrun, hends.idle, hends.done, hends.failed, hends.now, hends.sleeps, hafter, hwithin⟩

end Sys2Proof.Machine
end
